-- ==== Sys2Proof/Word.lean ====
section
/-! DEFINITION. The widths of the machine: words, bytes, and register numbers. -/

namespace Sys2Proof

/-- XLEN = 32: every general register, the pc, every CSR and every address (R11). -/
abbrev Word := BitVec 32

/-- One byte of memory, of the keyboard queue or of the console (R150, R154, R160). -/
abbrev Byte := BitVec 8

/-- A 64-bit counter: `cycle64`, `mtime`, `mtimecmp` (R105, R106, R107). -/
abbrev DWord := BitVec 64

/-- The number of a general register: a plain 5-bit index (R304). -/
abbrev Reg := BitVec 5

/-- The number of a CSR: 12 bits (R140). -/
abbrev CsrNum := BitVec 12

end Sys2Proof
end

