-- ==== Sys2Proof/Config.lean ====
section
/-! DEFINITION. The platform parameters of R12 with their constraints (R13), the spec's test configuration (R14), and the
free inputs of the host: what it does at each turn and what the keyboard delivers before each poll. -/

namespace Sys2Proof

/-- The platform parameters, "arguments" of the model (R12). They are data of the machine's state and no step changes
them (log entry 1). -/
structure Config where
  ramBase       : Word
  ramSize       : Word
  mmioBase      : Word
  mmioSize      : Word
  uartDataOff   : Word
  uartLsrOff    : Word
  clintCmpLoOff : Word
  clintCmpHiOff : Word
  clintTimeLoOff : Word
  clintTimeHiOff : Word
  sysconOff     : Word
  fbPixelsOff   : Word
  fbVblankOff   : Word
  fbSwapOff     : Word
  fbWidth       : Word
  fbHeight      : Word
  sysconRestart  : Word
  sysconPoweroff : Word
  csrDbgDec     : CsrNum
  csrDbgHex     : CsrNum
  csrDbgStr     : CsrNum
  csrDbgChar    : CsrNum
  csrDbgGetc    : CsrNum
  keyNone       : Word
  strictTraps   : Bool
  deriving DecidableEq, Repr

namespace Config

/-- One past the last RAM address (R201). -/
abbrev ramEnd (c : Config) : Nat := c.ramBase.toNat + c.ramSize.toNat

/-- One past the last MMIO address (R201). -/
abbrev mmioEnd (c : Config) : Nat := c.mmioBase.toNat + c.mmioSize.toNat

/-- Size in bytes of the pixel region and of the presentation buffer: `FB_WIDTH*FB_HEIGHT*4` (R153, R249). -/
abbrev fbBytes (c : Config) : Nat := c.fbWidth.toNat * c.fbHeight.toNat * 4

/-- Physical address of the first pixel byte (R249). -/
abbrev fbBase (c : Config) : Nat := c.mmioBase.toNat + c.fbPixelsOff.toNat

/-- The offsets of the nine device registers, in the order of R13 item 5. -/
abbrev deviceOffsets (c : Config) : List Nat :=
  [c.uartDataOff.toNat, c.uartLsrOff.toNat, c.clintCmpLoOff.toNat, c.clintCmpHiOff.toNat,
   c.clintTimeLoOff.toNat, c.clintTimeHiOff.toNat, c.sysconOff.toNat, c.fbVblankOff.toNat, c.fbSwapOff.toNat]

/-- The five diagnostic CSR numbers (R12). -/
abbrev diagnosticCsrs (c : Config) : List CsrNum :=
  [c.csrDbgDec, c.csrDbgHex, c.csrDbgStr, c.csrDbgChar, c.csrDbgGetc]

/-- The CSR numbers of R120. -/
abbrev implementedCsrs : List CsrNum :=
  [0x300, 0x301, 0x304, 0x305, 0x340, 0x341, 0x342, 0x343, 0x344, 0xC00, 0xC80, 0xF11, 0xF12, 0xF13, 0xF14]

/-- R13 item 1: bases and sizes are multiples of 4, RAM is not empty, neither region wraps past 2^32. -/
abbrev RegionsAligned (c : Config) : Prop :=
  c.ramBase.toNat % 4 = 0 ∧ c.ramSize.toNat % 4 = 0 ∧ c.mmioBase.toNat % 4 = 0 ∧ c.mmioSize.toNat % 4 = 0 ∧
    0 < c.ramSize.toNat ∧ c.ramEnd ≤ 2 ^ 32 ∧ c.mmioEnd ≤ 2 ^ 32

/-- R13 item 2: all of RAM lies below the MMIO window. -/
abbrev RamBelowMmio (c : Config) : Prop := c.ramEnd ≤ c.mmioBase.toNat

/-- R13 item 3: every device register and the whole pixel region lie in the MMIO window. -/
abbrev DevicesInWindow (c : Config) : Prop :=
  (∀ d ∈ c.deviceOffsets, d < c.mmioSize.toNat) ∧ c.fbPixelsOff.toNat < c.mmioSize.toNat ∧
    c.fbPixelsOff.toNat + c.fbBytes ≤ c.mmioSize.toNat

/-- R13 item 4: the word-wide device registers and the pixel region are word aligned (the UART's need not be). -/
abbrev DevicesAligned (c : Config) : Prop :=
  c.clintCmpLoOff.toNat % 4 = 0 ∧ c.clintCmpHiOff.toNat % 4 = 0 ∧ c.clintTimeLoOff.toNat % 4 = 0 ∧
    c.clintTimeHiOff.toNat % 4 = 0 ∧ c.sysconOff.toNat % 4 = 0 ∧ c.fbVblankOff.toNat % 4 = 0 ∧
    c.fbSwapOff.toNat % 4 = 0 ∧ c.fbPixelsOff.toNat % 4 = 0

/-- R13 item 5: the nine device registers are pairwise distinct and none lies in the pixel region. -/
abbrev DevicesDistinct (c : Config) : Prop :=
  c.deviceOffsets.Nodup ∧
    ∀ d ∈ c.deviceOffsets, ¬ (c.fbPixelsOff.toNat ≤ d ∧ d < c.fbPixelsOff.toNat + c.fbBytes)

/-- R13 item 6: the diagnostic CSR numbers are pairwise distinct and none is a CSR of R120. -/
abbrev DiagnosticsDistinct (c : Config) : Prop :=
  c.diagnosticCsrs.Nodup ∧ ∀ n ∈ c.diagnosticCsrs, n ∉ implementedCsrs

/-- A legal configuration: the six constraints of R13, and the two SYSCON sentinels distinct (D7). -/
abbrev Valid (c : Config) : Prop :=
  c.RegionsAligned ∧ c.RamBelowMmio ∧ c.DevicesInWindow ∧ c.DevicesAligned ∧ c.DevicesDistinct ∧
    c.DiagnosticsDistinct ∧ c.sysconRestart ≠ c.sysconPoweroff

/-- The test configuration TC, the spec's own (R14). -/
def testConfig : Config where
  ramBase := 0x00000000
  ramSize := 0x00100000
  mmioBase := 0x10000000
  mmioSize := 0x02000000
  uartDataOff := 0x0
  uartLsrOff := 0x5
  clintCmpLoOff := 0x1004000
  clintCmpHiOff := 0x1004004
  clintTimeLoOff := 0x100BFF8
  clintTimeHiOff := 0x100BFFC
  sysconOff := 0x1100000
  fbPixelsOff := 0x1200000
  fbVblankOff := 0x1300000
  fbSwapOff := 0x1300004
  fbWidth := 320
  fbHeight := 240
  sysconRestart := 0x00007777
  sysconPoweroff := 0x00005555
  csrDbgDec := 0x136
  csrDbgHex := 0x137
  csrDbgStr := 0x138
  csrDbgChar := 0x139
  csrDbgGetc := 0x140
  keyNone := 0xFFFFFFFF
  strictTraps := false

end Config

/-- What the host does between two batch calls (R770): it may set `vblank` (R772) and then makes the next step call with
inputs of its choice (R15, R760), or it stops calling (cancellation, R776; a reload that fails at a restart, R802). -/
inductive HostTurn
  | call (setVblank : Bool) (elapsed : Word) (budget : Nat)
  | stop
  deriving DecidableEq, Repr, Inhabited

/-- FREE VALUE: the host's next turn when State lists none; the argument is how many free values were drawn before
(R763 "A model takes them as inputs", R772, R776; log entry 4). -/
opaque Config.hostTurn : Nat → HostTurn

/-- FREE VALUE: the keyboard bytes that arrived before a poll when State lists none; the argument is how many free values
were drawn before (R773 "a free input of that access"; log entry 5). -/
opaque Config.keyArrivals : Nat → List Byte

end Sys2Proof
end

