-- ==== Sys2Proof/Machine/State.lean ====
section
/-! DEFINITION. The state of the machine as plain data, the names of its exceptions, access kinds, regions, device ports and
CSRs, the reasons a step can stop, and the state right after reset. -/

namespace Sys2Proof.Machine

/-- Memory: address and byte pairs, addresses strictly rising, no byte equal to what an unlisted address reads as. RAM and
the MMIO backing bytes (R150, R151) share one map keyed by physical address (log entry 11). -/
abbrev Memory := List Host.Cell

/-- The privilege modes (R3, R108). -/
inductive Priv
  | user     -- U, encoded 0
  | machine  -- M, encoded 3
  deriving DecidableEq, Repr

/-- The implemented fields of `mstatus`; every other bit is read-only zero (R121). -/
structure Mstatus where
  mie  : Bool
  mpie : Bool
  mpp  : Priv
  deriving DecidableEq, Repr

/-- The result of a batch call (R762). -/
inductive StepResult
  | continues                       -- `continue`: the budget is used up, or a trap was entered
  | idle                            -- WFI waits
  | fatal (cause tval : Word)       -- an exception in strict mode (R765)
  | restart                         -- SYSCON restart (R254)
  | poweroff (cycles : DWord)       -- SYSCON power-off with the final cycle count (R255)
  deriving DecidableEq, Repr

/-- Where the batch engine of R760 stands between two steps of the model (log entry 3). -/
inductive Phase
  | ready (last : Option StepResult)  -- no call is running; what the last call returned, none before the first call
  | rebooted                          -- the reset after a `restart` result is done and the next call is to come (R801)
  | running (left : Nat)              -- a call is running and may begin `left` more instructions (R763)
  | stopped                           -- the host has stopped calling (R776, R802)
  deriving DecidableEq, Repr

/-- The exceptions of R710, each with what its trap value is made of (R711). -/
inductive Exception
  | instrAddrMisaligned (target : Word)
  | instrAccessFault (addr : Word)
  | illegalInstruction (inst : Word)
  | breakpoint (addr : Word)
  | loadAddrMisaligned (addr : Word)
  | loadAccessFault (addr : Word)
  | storeAddrMisaligned (addr : Word)
  | storeAccessFault (addr : Word)
  | envCallFromU
  | envCallFromM
  deriving DecidableEq, Repr

/-- The access widths: 1, 2 and 4 bytes (R205). -/
inductive Width
  | byte
  | half
  | word
  deriving DecidableEq, Repr

/-- The kinds of `MemRead` (R18, R230, C8). -/
inductive ReadKind
  | fetch
  | load
  | lr
  | amo
  deriving DecidableEq, Repr

/-- The kinds of `MemWrite` (R18, R234). -/
inductive WriteKind
  | store
  | amo
  deriving DecidableEq, Repr

/-- The regions of the address space (R201). -/
inductive Region
  | ram
  | mmio
  | unmapped
  deriving DecidableEq, Repr

/-- The intercepted loads of R240. -/
inductive LoadPort
  | uartData
  | uartStatus
  | cmpLo
  | cmpHi
  | timeLo
  | timeHi
  | vblank
  deriving DecidableEq, Repr

/-- The intercepted stores of R240. -/
inductive StorePort
  | uartData
  | cmpLo
  | cmpHi
  | swap
  | syscon
  deriving DecidableEq, Repr

/-- The CSRs: the fifteen of R120, the five diagnostic ones (R132 to R136), and every "other" number (R137). -/
inductive Csr
  | mstatus
  | misa
  | mie
  | mtvec
  | mscratch
  | mepc
  | mcause
  | mtval
  | mip
  | cycle
  | cycleh
  | mvendorid
  | marchid
  | mimpid
  | mhartid
  | dbgDec
  | dbgHex
  | dbgStr
  | dbgChar
  | dbgGetc
  | other
  deriving DecidableEq, Repr

/-- Why a launch is refused: there is no initial state (R13, R803). -/
inductive LaunchError
  | illegalConfiguration
  | firmwareTooLarge
  deriving DecidableEq, Repr

/-- Why the machine stops. -/
inductive Fault
  /-- Raised by `step` alone, in a state whose run has ended: after a `poweroff` or `fatal` result, or once the host has
  stopped, no step call is ever made (R762, R770, R775). No instruction raises it. Safe: the block "executes nothing more"
  (R255). -/
  | runEnded
  deriving DecidableEq, Repr

/-- Why an instruction has no meaning. -/
inductive Refusal
  /-- Raised by an arm of `exec` whose instruction is not modelled yet; no arm raises it in this model. Safe. -/
  | notModelled (mnemonic : String)
  deriving DecidableEq, Repr

/-- The machine's state (INVENTORY.md, '## State', has the rule and the reset value of each field). -/
structure State where
  cfg       : Config
  firmware  : List Byte
  regs      : Vector Word 32
  pc        : Word
  cycle64   : DWord
  mtime     : DWord
  mtimecmp  : DWord
  priv      : Priv
  wfi       : Bool
  resvValid : Bool
  resvAddr  : Word
  mstatus   : Mstatus
  mtie      : Bool
  mtip      : Bool
  mtvec     : Word
  mscratch  : Word
  mepc      : Word
  mcause    : Word
  mtval     : Word
  mem       : Memory
  vblank    : Bool
  present   : Memory
  kbd       : List Byte
  console   : List Byte
  phase     : Phase
  turns     : List HostTurn
  keyFeed   : List (List Byte)
  draws     : Nat
  deriving DecidableEq, Repr

/-- The machine right after a cold start (R170, R801), in the spec's test configuration (R14, log entry 1) with the empty
firmware image (R802, log entry 2): every register 0 but `pc = RAM_BASE` and `priv = M`, RAM and MMIO zero, nothing
queued, no batch call made yet. -/
def State.reset : State where
  cfg := Config.testConfig
  firmware := []
  regs := Vector.replicate 32 0
  pc := Config.testConfig.ramBase
  cycle64 := 0
  mtime := 0
  mtimecmp := 0
  priv := .machine
  wfi := false
  resvValid := false
  resvAddr := 0
  mstatus := { mie := false, mpie := false, mpp := .user }
  mtie := false
  mtip := false
  mtvec := 0
  mscratch := 0
  mepc := 0
  mcause := 0
  mtval := 0
  mem := []
  vblank := false
  present := []
  kbd := []
  console := []
  phase := .ready none
  turns := []
  keyFeed := []
  draws := 0

/-- An outcome of an instruction or of a step. -/
abbrev Result := Host.Outcome State Fault Refusal

end Sys2Proof.Machine
end

