-- ==== Sys2Proof/Machine/Flags.lean ====
section
/-! DEFINITION. There are no condition flags (R110): a comparison writes 0 or 1 to a general register or decides a branch. The
one-bit states of the hart are those of `mstatus`, `mie` and `mip`; here are the words CSR instructions see of them, the
masks their writes pass through, and the enable tests of the timer interrupt. -/

namespace Sys2Proof.Machine

/-- The word a comparison writes: `0x00000001` or `0x00000000` (R403, R414). -/
def truthWord (b : Bool) : Word := if b then 1 else 0

/-- The 2-bit code of a privilege mode (R3, R108). -/
def Priv.bits : Priv → BitVec 2
  | .user => 0b00
  | .machine => 0b11

/-- The mode a 2-bit MPP field names; 0b01 and 0b10 name none (R121). -/
def Priv.ofBits (b : BitVec 2) : Option Priv :=
  if b = 0b00 then some .user else if b = 0b11 then some .machine else none

/-- The read value of `mstatus`: `{19'b0, MPP, 3'b0, MPIE, 3'b0, MIE, 3'b0}` (R121). -/
def Mstatus.toWord (m : Mstatus) : Word :=
  0#19 ++ m.mpp.bits ++ 0#3 ++ BitVec.ofBool m.mpie ++ 0#3 ++ BitVec.ofBool m.mie ++ 0#3

/-- A CSR write of `v` to `mstatus`: MIE and MPIE take any value, MPP keeps its value when `v` holds 0b01 or 0b10, and every
other bit ignores the write (R121, R143). -/
def Mstatus.write (m : Mstatus) (v : Word) : Mstatus where
  mie := v.getLsbD 3
  mpie := v.getLsbD 7
  mpp := (Priv.ofBits (v.extractLsb' 11 2)).getD m.mpp

/-- The word of a register whose one implemented bit is bit 7: `mie` (R123) and `mip` (R129). -/
def timerBitWord (b : Bool) : Word := if b then 0x00000080 else 0

/-- What a CSR write of `v` to `mie` stores: `MTIE <- v[7]` (R123). -/
def mtieOfWrite (v : Word) : Bool := v.getLsbD 7

/-- The write mask of `mtvec` and `mepc`: bits 1:0 are read-only zero (R124, R126, R143). -/
def alignMask (v : Word) : Word := v &&& 0xFFFFFFFC

/-- `(mip & mie) != 0`: the timer interrupt is pending and enabled, `mstatus.MIE` aside (R663, R741). -/
def State.wakes (s : State) : Bool := s.mtip && s.mtie

/-- The delivery condition: MTIP, MTIE and `mstatus.MIE` all 1, in both modes (R742). -/
def State.interruptDue (s : State) : Bool := s.mtip && s.mtie && s.mstatus.mie

end Sys2Proof.Machine
end

