-- ==== Sys2Proof/Machine/Memory.lean ====
section
/-! DEFINITION. The byte map that holds RAM, the MMIO backing bytes and the presentation buffer, and little-endian accesses of
several bytes over it. -/

namespace Sys2Proof.Machine

/-- The number of bytes of an access (R205). -/
def Width.bytes : Width → Nat
  | .byte => 1
  | .half => 2
  | .word => 4

/-- What an unlisted address reads as: zero, the reset content of RAM and of the MMIO region (R170, R801). -/
def Memory.unlisted : Byte := 0

/-- The byte at address `a`. -/
def Memory.read : Memory → Nat → Byte
  | [], _ => Memory.unlisted
  | (k, b) :: rest, a => if k = a then b else Memory.read rest a

/-- The memory with byte `v` at address `a`, in canonical form again. -/
def Memory.write : Memory → Nat → Byte → Memory
  | [], a, v => if v = Memory.unlisted then [] else [(a, v)]
  | (k, b) :: rest, a, v =>
    if a < k then (if v = Memory.unlisted then (k, b) :: rest else (a, v) :: (k, b) :: rest)
    else if a = k then (if v = Memory.unlisted then rest else (a, v) :: rest)
    else (k, b) :: Memory.write rest a v

/-- The canonical form from address `lo` on: addresses strictly rising, none below `lo`, no byte equal to `unlisted`. -/
def Memory.wfFrom : Nat → Memory → Bool
  | _, [] => true
  | lo, (k, b) :: rest => decide (lo ≤ k) && decide (b ≠ Memory.unlisted) && Memory.wfFrom (k + 1) rest

/-- The canonical form of a memory. -/
def Memory.wf (m : Memory) : Bool := Memory.wfFrom 0 m

/-- `{M[a+n-1], ..., M[a+1], M[a]}`, zero-extended to 32 bits: the little-endian composition (R204, R231, R232). -/
def Memory.readLE (m : Memory) (a : Nat) : Nat → Word
  | 0 => 0
  | n + 1 => (Memory.readLE m (a + 1) n <<< 8) ||| (Memory.read m a).setWidth 32

/-- `M[a+k] <- v[8k+7:8k]` for k in 0 to n-1 (R204, R235, R236). -/
def Memory.writeLE (m : Memory) (a : Nat) : Nat → Word → Memory
  | 0, _ => m
  | n + 1, v => Memory.writeLE (Memory.write m a (v.setWidth 8)) (a + 1) n (v >>> 8)

/-- The canonical memory that holds `bytes` from address `a` on and zero elsewhere: a firmware image in place (R801). -/
def Memory.ofImage : Nat → List Byte → Memory
  | _, [] => []
  | a, b :: rest =>
    if b = Memory.unlisted then Memory.ofImage (a + 1) rest else (a, b) :: Memory.ofImage (a + 1) rest

/-- The `size` bytes from address `lo` on, moved to address 0: `out[k] <- M[lo + k]` for k below `size` (R251). -/
def Memory.slice (m : Memory) (lo size : Nat) : Memory :=
  (m.filter fun cell => decide (lo ≤ cell.1) && decide (cell.1 < lo + size)).map fun cell => (cell.1 - lo, cell.2)

/-- The bytes from address `a` up to, but not including, the first zero byte, at most `n` of them (R134). -/
def Memory.cstring (m : Memory) : Nat → Nat → List Byte
  | _, 0 => []
  | a, n + 1 => if Memory.read m a = 0 then [] else Memory.read m a :: Memory.cstring m (a + 1) n

end Sys2Proof.Machine
end

