-- ==== Sys2Proof/Machine/Operands.lean ====
section
/-! DEFINITION. Every operand form: registers, immediates as words, shift amounts, the effective address, and the checked
target of a control transfer. -/

namespace Sys2Proof.Machine

/-- `x[i]`: register `i`, and `0x00000000` for i = 0 whatever is stored there (R17, R101). -/
def State.x (s : State) (i : Reg) : Word := if i = 0 then 0 else s.regs[i.toNat]

/-- `immI` and `immS`: a 12-bit field sign-extended (R303). -/
def signed12 (imm : BitVec 12) : Word := imm.signExtend 32

/-- `immB`: a 13-bit offset sign-extended (R303). -/
def signed13 (off : BitVec 13) : Word := off.signExtend 32

/-- `immJ`: a 21-bit offset sign-extended (R303). -/
def signed21 (off : BitVec 21) : Word := off.signExtend 32

/-- `immU`: a 20-bit field in bits 31:12 (R303). -/
def upper20 (imm : BitVec 20) : Word := imm ++ 0#12

/-- `uimm`: a 5-bit field zero-extended (R303, R670). -/
def unsigned5 (uimm : BitVec 5) : Word := uimm.setWidth 32

/-- The shift amount of a register shift: bits 4:0 of the register (R413). -/
def shiftAmount (v : Word) : Nat := (v.setWidth 5).toNat

/-- The effective address of a load or store: `x[rs1] + imm` modulo 2^32 (R500). -/
def State.effectiveAddr (s : State) (rs1 : Reg) (imm : BitVec 12) : Word := s.x rs1 + signed12 imm

/-- The target of JAL (R451). -/
def State.jalTarget (s : State) (off : BitVec 21) : Word := s.pc + signed21 off

/-- The target of JALR: bit 0 of the sum is cleared (R452). -/
def State.jalrTarget (s : State) (rs1 : Reg) (imm : BitVec 12) : Word :=
  (s.x rs1 + signed12 imm) &&& 0xFFFFFFFE

/-- The target of a branch (R460). -/
def State.branchTarget (s : State) (off : BitVec 13) : Word := s.pc + signed13 off

/-- `sext_8`, of the low byte of what a load read (R501). -/
def sext8 (v : Word) : Word := (v.setWidth 8).signExtend 32

/-- `sext_16` (R502). -/
def sext16 (v : Word) : Word := (v.setWidth 16).signExtend 32

/-- `zext_8` (R504). -/
def zext8 (v : Word) : Word := (v.setWidth 8).setWidth 32

/-- `zext_16` (R505). -/
def zext16 (v : Word) : Word := (v.setWidth 16).setWidth 32

/-- `CheckTarget(t)`: the exception of a misaligned target, before any write (R450). -/
def checkTarget (t : Word) : Except Exception Word :=
  if t.extractLsb' 0 2 = 0b00#2 then .ok t else .error (.instrAddrMisaligned t)

end Sys2Proof.Machine
end

