-- ==== Sys2Proof/Machine/Ops.lean ====
section
/-! DEFINITION. The named operations over registers, memory, devices and traps that every instruction's meaning is built from:
register and pc writes, the end of a batch, taking an exception and returning from one, `MemRead`, `MemWrite` and the MMIO
dispatcher. -/

namespace Sys2Proof.Machine

/-! ### Registers, pc, console -/

/-- `x[i] <- v`; no effect when i = 0 (R17, R101). -/
def State.setX (s : State) (i : Reg) (v : Word) : State :=
  if i = 0 then s else { s with regs := s.regs.set i.toNat v }

/-- `pc <- t` (R17). -/
def State.setPc (s : State) (t : Word) : State := { s with pc := t }

/-- The next pc of an instruction that names no other: `pc + 4` modulo 2^32 (R104). -/
def State.advance (s : State) : State := s.setPc (s.pc + 4)

/-- An instruction completes with `x[rd] <- v` and `pc + 4`. -/
def State.retire (s : State) (rd : Reg) (v : Word) : State := (s.setX rd v).advance

/-- `Output(bytes)`: append to the host console (R18, R160). -/
def State.output (s : State) (bytes : List Byte) : State := { s with console := s.console ++ bytes }

/-- The word transferred in memory at `a` (R231, R232): the low `8n` bits, zero-extended. -/
def State.loadBytes (s : State) (a : Word) (w : Width) : Word := Memory.readLE s.mem a.toNat w.bytes

/-- The low `8n` bits of `v` stored at `a` (R235, R236). -/
def State.storeBytes (s : State) (a : Word) (w : Width) (v : Word) : State :=
  { s with mem := Memory.writeLE s.mem a.toNat w.bytes v }

/-! ### Traps (R710, R711, R720) -/

/-- `end_batch(r)`: the call returns `r` (R18, R760, R762). -/
def State.endBatch (s : State) (r : StepResult) : State := { s with phase := .ready (some r) }

/-- The cause code of an exception (R710). -/
def Exception.cause : Exception → Word
  | .instrAddrMisaligned _ => 0x00000000
  | .instrAccessFault _ => 0x00000001
  | .illegalInstruction _ => 0x00000002
  | .breakpoint _ => 0x00000003
  | .loadAddrMisaligned _ => 0x00000004
  | .loadAccessFault _ => 0x00000005
  | .storeAddrMisaligned _ => 0x00000006
  | .storeAccessFault _ => 0x00000007
  | .envCallFromU => 0x00000008
  | .envCallFromM => 0x0000000B

/-- The trap value of an exception (R711). -/
def Exception.tval : Exception → Word
  | .instrAddrMisaligned target => target
  | .instrAccessFault addr => addr
  | .illegalInstruction inst => inst
  | .breakpoint addr => addr
  | .loadAddrMisaligned addr => addr
  | .loadAccessFault addr => addr
  | .storeAddrMisaligned addr => addr
  | .storeAccessFault addr => addr
  | .envCallFromU => 0
  | .envCallFromM => 0

/-- The cause code of the machine timer interrupt (R710). -/
def timerCause : Word := 0x80000007

/-- `TrapEntry(cause, tval, epc)` (R720). -/
def State.trapEntry (s : State) (cause tval epc : Word) : State :=
  { s with
    mepc := alignMask epc
    mcause := cause
    mtval := tval
    mstatus := { mie := false, mpie := s.mstatus.mie, mpp := s.priv }
    priv := .machine
    pc := s.mtvec }

/-- TAKING AN EXCEPTION: what ends the instruction that raises `e`. The trap is entered with the instruction's own pc saved,
and the batch ends with `continue` (R720, R722); in strict mode the batch ends with `fatal` and nothing else changes (R765). -/
def State.takeException (s : State) (e : Exception) : State :=
  if s.cfg.strictTraps then s.endBatch (.fatal e.cause e.tval)
  else (s.trapEntry e.cause e.tval s.pc).endBatch .continues

/-- `raise E(tval)` as an outcome (R18): the machine goes on with the trap taken. -/
def raise (e : Exception) (s : State) : Result := .next (s.takeException e)

/-- THE RETURN FROM A TRAP, MRET's effect in M mode: `mstatus.MIE <- MPIE`, `MPIE <- 1`, `MPP <- U`, `priv <- MPP`,
`pc <- mepc` (R662, R723). -/
def State.trapReturn (s : State) : State :=
  { s with
    mstatus := { mie := s.mstatus.mpie, mpie := true, mpp := .user }
    priv := s.mstatus.mpp
    pc := s.mepc }

/-! ### Regions and the checks of an access (R201, R206, R207) -/

/-- The region of an address (R201). -/
def region (c : Config) (a : Word) : Region :=
  if c.ramBase.toNat ≤ a.toNat ∧ a.toNat < c.ramEnd then .ram
  else if c.mmioBase.toNat ≤ a.toNat ∧ a.toNat < c.mmioEnd then .mmio
  else .unmapped

/-- The misaligned exception of a read (R206, R230). -/
def ReadKind.misaligned (k : ReadKind) (a : Word) : Exception :=
  match k with
  | .fetch => .instrAddrMisaligned a
  | .load => .loadAddrMisaligned a
  | .lr => .loadAddrMisaligned a
  | .amo => .storeAddrMisaligned a

/-- The access fault of a read (R202, R230). -/
def ReadKind.accessFault (k : ReadKind) (a : Word) : Exception :=
  match k with
  | .fetch => .instrAccessFault a
  | .load => .loadAccessFault a
  | .lr => .loadAccessFault a
  | .amo => .storeAccessFault a

/-- The regions a read may reach: RAM, and for a plain load the MMIO window too (R209, R230, R257). -/
def ReadKind.reaches (k : ReadKind) (r : Region) : Bool :=
  match k, r with
  | _, .ram => true
  | .load, .mmio => true
  | .fetch, .mmio => false
  | .lr, .mmio => false
  | .amo, .mmio => false
  | _, .unmapped => false

/-- The regions a write may reach: RAM, and for a plain store the MMIO window too (R234, R257). -/
def WriteKind.reaches (k : WriteKind) (r : Region) : Bool :=
  match k, r with
  | _, .ram => true
  | .store, .mmio => true
  | .amo, .mmio => false
  | _, .unmapped => false

/-- The exception a read raises, if any: alignment first, then region (R207, R230). -/
def readCheck (c : Config) (a : Word) (w : Width) (k : ReadKind) : Option Exception :=
  if a.toNat % w.bytes ≠ 0 then some (k.misaligned a)
  else if k.reaches (region c a) then none
  else some (k.accessFault a)

/-- The exception a write raises, if any: alignment first, then region (R207, R234). -/
def writeCheck (c : Config) (a : Word) (w : Width) (k : WriteKind) : Option Exception :=
  if a.toNat % w.bytes ≠ 0 then some (.storeAddrMisaligned a)
  else if k.reaches (region c a) then none
  else some (.storeAccessFault a)

/-! ### The MMIO dispatcher (R240) -/

/-- The intercepted load at an address, if any (R240). -/
def loadPort (c : Config) (a : Word) : Option LoadPort :=
  if a = c.mmioBase + c.uartDataOff then some .uartData
  else if a = c.mmioBase + c.uartLsrOff then some .uartStatus
  else if a = c.mmioBase + c.clintCmpLoOff then some .cmpLo
  else if a = c.mmioBase + c.clintCmpHiOff then some .cmpHi
  else if a = c.mmioBase + c.clintTimeLoOff then some .timeLo
  else if a = c.mmioBase + c.clintTimeHiOff then some .timeHi
  else if a = c.mmioBase + c.fbVblankOff then some .vblank
  else none

/-- The intercepted store at an address, if any (R240). -/
def storePort (c : Config) (a : Word) : Option StorePort :=
  if a = c.mmioBase + c.uartDataOff then some .uartData
  else if a = c.mmioBase + c.clintCmpLoOff then some .cmpLo
  else if a = c.mmioBase + c.clintCmpHiOff then some .cmpHi
  else if a = c.mmioBase + c.fbSwapOff then some .swap
  else if a = c.mmioBase + c.sysconOff then some .syscon
  else none

/-- What a poll sees of the keyboard: the bytes that arrived before it join the queue, from State's list where it has one,
else a free value (R154, R773; log entry 5). -/
def State.pollKeyboard (s : State) : State :=
  match s.keyFeed with
  | bytes :: rest => { s with kbd := s.kbd ++ bytes, keyFeed := rest }
  | [] => { s with kbd := s.kbd ++ Config.keyArrivals s.draws, draws := s.draws + 1 }

/-- A poll that takes a byte: the first byte of the queue, zero-extended, or `none` when it is empty (R136, R242). -/
def State.takeKey (s : State) : Option Word × State :=
  match s.pollKeyboard.kbd with
  | [] => (none, s.pollKeyboard)
  | b :: rest => (some (b.setWidth 32), { s.pollKeyboard with kbd := rest })

/-- The line status: `0x00000060 | DR` (R243). -/
def lineStatus (kbd : List Byte) : Word := 0x00000060 ||| truthWord (!kbd.isEmpty)

/-- `DeviceLoad`: the 32-bit value and the side effect of an intercepted load (R233). -/
def deviceLoad (p : LoadPort) (s : State) : Word × State :=
  match p with
  | .uartData => (s.takeKey.1.getD 0, s.takeKey.2)                        -- R242
  | .uartStatus => (lineStatus s.pollKeyboard.kbd, s.pollKeyboard)        -- R243
  | .cmpLo => (s.mtimecmp.extractLsb' 0 32, s)                            -- R248
  | .cmpHi => (s.mtimecmp.extractLsb' 32 32, s)                           -- R248
  | .timeLo => (s.mtime.extractLsb' 0 32, s)                              -- R246
  | .timeHi => (s.mtime.extractLsb' 32 32, s)                             -- R246
  | .vblank => (truthWord s.vblank, { s with vblank := false })           -- R250

/-- The pixel region as an array of `FB_WIDTH*FB_HEIGHT*4` bytes (R249, R251). -/
def State.pixels (s : State) : Memory := Memory.slice s.mem s.cfg.fbBase s.cfg.fbBytes

/-- The SYSCON store of the full value `v` (R253): restart (R254), power-off with the cycle count (R255), or the low bytes
stored inertly (R256). The pc is advanced by the store instruction itself. -/
def sysconStore (w : Width) (v : Word) (s : State) : State :=
  if v = s.cfg.sysconRestart then s.endBatch .restart
  else if v = s.cfg.sysconPoweroff then s.endBatch (.poweroff s.cycle64)
  else s.storeBytes (s.cfg.mmioBase + s.cfg.sysconOff) w v

/-- `DeviceStore`: the action of an intercepted store, given the full 32-bit register value (R237). -/
def deviceStore (p : StorePort) (w : Width) (v : Word) (s : State) : State :=
  match p with
  | .uartData => s.output [v.setWidth 8]                                           -- R241
  | .cmpLo => { s with mtimecmp := s.mtimecmp.extractLsb' 32 32 ++ v }             -- R245
  | .cmpHi => { s with mtimecmp := v ++ s.mtimecmp.extractLsb' 0 32 }              -- R245
  | .swap => { s with present := s.pixels, vblank := true }                        -- R251
  | .syscon => sysconStore w v s                                                   -- R253

/-! ### MemRead and MemWrite (R230, R234) -/

/-- The low `8n` bits of a value, zero-extended: `trunc_8n` (R16). -/
def Width.trunc (w : Width) (v : Word) : Word :=
  match w with
  | .byte => zext8 v
  | .half => zext16 v
  | .word => v

/-- The read itself, once its checks have passed (R230). -/
def readValue (a : Word) (w : Width) (s : State) : Word × State :=
  match region s.cfg a with
  | .ram => (s.loadBytes a w, s)
  | .mmio | .unmapped =>
    match loadPort s.cfg a with
    | some p => (w.trunc (deviceLoad p s).1, (deviceLoad p s).2)
    | none => (s.loadBytes a w, s)

/-- `MemRead(a, n, kind)`: the value and the state after its side effect, or the exception (R230). -/
def memRead (a : Word) (w : Width) (k : ReadKind) (s : State) : Except Exception (Word × State) :=
  match readCheck s.cfg a w k with
  | some e => .error e
  | none => .ok (readValue a w s)

/-- The write itself, once its checks have passed (R234). -/
def writeValue (a : Word) (w : Width) (v : Word) (s : State) : State :=
  match region s.cfg a with
  | .ram => s.storeBytes a w v
  | .mmio | .unmapped =>
    match storePort s.cfg a with
    | some p => deviceStore p w v s
    | none => s.storeBytes a w v

/-- `MemWrite(a, n, v, kind)`: the state after it, or the exception (R234). -/
def memWrite (a : Word) (w : Width) (v : Word) (k : WriteKind) (s : State) : Except Exception State :=
  match writeCheck s.cfg a w k with
  | some e => .error e
  | none => .ok (writeValue a w v s)

/-- The fetch: `MemRead(pc, 4, fetch)`, which has no side effect (R701, R231). -/
def State.fetch (s : State) : Except Exception Word :=
  match memRead s.pc .word .fetch s with
  | .error e => .error e
  | .ok (inst, _) => .ok inst

/-- An instruction begins: `cycle64` counts it and one unit of the budget is used (R761, R763). -/
def State.beginInstr (s : State) (left : Nat) : State :=
  { s with cycle64 := s.cycle64 + 1, phase := .running left }

/-- The four bytes of `w` in memory where the next fetch reads. -/
def State.placeWord (s : State) (w : Word) : State := s.storeBytes s.pc .word w

end Sys2Proof.Machine
end

