-- ==== Sys2Proof/Machine/Csr.lean ====
section
/-! DEFINITION. The CSR state machine: which register a number names, the access checks, the read and the write, and the text
that the diagnostic CSRs print. -/

namespace Sys2Proof.Machine

/-- The CSR a number names: R120, then the diagnostic CSRs (R132 to R136), else an "other" CSR (R137). -/
def csrNamed (c : Config) (n : CsrNum) : Csr :=
  if n = 0x300 then .mstatus
  else if n = 0x301 then .misa
  else if n = 0x304 then .mie
  else if n = 0x305 then .mtvec
  else if n = 0x340 then .mscratch
  else if n = 0x341 then .mepc
  else if n = 0x342 then .mcause
  else if n = 0x343 then .mtval
  else if n = 0x344 then .mip
  else if n = 0xC00 then .cycle
  else if n = 0xC80 then .cycleh
  else if n = 0xF11 then .mvendorid
  else if n = 0xF12 then .marchid
  else if n = 0xF13 then .mimpid
  else if n = 0xF14 then .mhartid
  else if n = c.csrDbgDec then .dbgDec
  else if n = c.csrDbgHex then .dbgHex
  else if n = c.csrDbgStr then .dbgStr
  else if n = c.csrDbgChar then .dbgChar
  else if n = c.csrDbgGetc then .dbgGetc
  else .other

/-- Whether an access is legal (R140): the mode is at least `n[9:8]`, and a number with `n[11:10] = 0b11` is not written. -/
def csrLegal (p : Priv) (n : CsrNum) (writes : Bool) : Bool :=
  decide ((n.extractLsb' 8 2).toNat ≤ p.bits.toNat) && !(decide (n.extractLsb' 10 2 = 0b11#2) && writes)

/-- `CSRRead(n)`: the value, and the state after the one read side effect there is, that of the keyboard CSR (R141). -/
def csrRead (n : CsrNum) (s : State) : Word × State :=
  match csrNamed s.cfg n with
  | .mstatus => (s.mstatus.toWord, s)                                       -- R121
  | .misa => (0x40101101, s)                                                -- R122
  | .mie => (timerBitWord s.mtie, s)                                        -- R123
  | .mtvec => (s.mtvec, s)                                                  -- R124
  | .mscratch => (s.mscratch, s)                                            -- R125
  | .mepc => (s.mepc, s)                                                    -- R126
  | .mcause => (s.mcause, s)                                                -- R127
  | .mtval => (s.mtval, s)                                                  -- R128
  | .mip => (timerBitWord s.mtip, s)                                        -- R129
  | .cycle => (s.cycle64.extractLsb' 0 32, s)                               -- R130
  | .cycleh => (s.cycle64.extractLsb' 32 32, s)                             -- R130
  | .mvendorid | .marchid | .mimpid | .mhartid => (0, s)                    -- R131
  | .dbgDec | .dbgHex | .dbgStr | .dbgChar => (0, s)                        -- R132 to R135
  | .dbgGetc => (s.takeKey.1.getD s.cfg.keyNone, s.takeKey.2)               -- R136
  | .other => (0, s)                                                        -- R137

/-- The decimal digits of `n`, at most `fuel` of them, in ASCII, with no leading zeros (R132). -/
def decimalDigits : Nat → Nat → List Byte
  | 0, _ => []
  | fuel + 1, n => (if n < 10 then [] else decimalDigits fuel (n / 10)) ++ [BitVec.ofNat 8 (48 + n % 10)]

/-- The signed decimal text of `s(v)`: a leading `-` for a negative value (R132). Ten digits hold every magnitude up to 2^31. -/
def decimalText (v : Word) : List Byte :=
  if v.toInt < 0 then 0x2D#8 :: decimalDigits 10 v.toInt.natAbs else decimalDigits 10 v.toInt.natAbs

/-- One lowercase hexadecimal digit in ASCII (R133). -/
def hexDigit (d : BitVec 4) : Byte :=
  if d.toNat < 10 then BitVec.ofNat 8 (48 + d.toNat) else BitVec.ofNat 8 (87 + d.toNat)

/-- Exactly eight lowercase hexadecimal digits, most significant first (R133). -/
def hexText (v : Word) : List Byte :=
  [hexDigit (v.extractLsb' 28 4), hexDigit (v.extractLsb' 24 4), hexDigit (v.extractLsb' 20 4),
   hexDigit (v.extractLsb' 16 4), hexDigit (v.extractLsb' 12 4), hexDigit (v.extractLsb' 8 4),
   hexDigit (v.extractLsb' 4 4), hexDigit (v.extractLsb' 0 4)]

/-- The string at guest address `v`: RAM bytes up to the first zero byte or the end of RAM; nothing if `v` is not a RAM
address (R134). -/
def guestString (s : State) (v : Word) : List Byte :=
  match region s.cfg v with
  | .ram => Memory.cstring s.mem v.toNat (s.cfg.ramEnd - v.toNat)
  | .mmio | .unmapped => []

/-- `CSRWrite(n, v)`: each register's write through its mask, and the output of the diagnostic CSRs (R142, R143). -/
def csrWrite (n : CsrNum) (v : Word) (s : State) : State :=
  match csrNamed s.cfg n with
  | .mstatus => { s with mstatus := s.mstatus.write v }                     -- R121
  | .misa => s                                                              -- R122: ignored
  | .mie => { s with mtie := mtieOfWrite v }                                -- R123
  | .mtvec => { s with mtvec := alignMask v }                               -- R124
  | .mscratch => { s with mscratch := v }                                   -- R125
  | .mepc => { s with mepc := alignMask v }                                 -- R126
  | .mcause => { s with mcause := v }                                       -- R127
  | .mtval => { s with mtval := v }                                         -- R128
  | .mip => s                                                               -- R129: ignored
  | .cycle | .cycleh => s                                                   -- R130: read-only, no write reaches here (R140)
  | .mvendorid | .marchid | .mimpid | .mhartid => s                         -- R131: read-only, no write reaches here (R140)
  | .dbgDec => s.output (decimalText v)                                     -- R132
  | .dbgHex => s.output (hexText v)                                         -- R133
  | .dbgStr => s.output (guestString s v)                                   -- R134
  | .dbgChar => s.output [v.setWidth 8]                                     -- R135
  | .dbgGetc => s                                                           -- R136: ignored
  | .other => s                                                             -- R137: ignored

end Sys2Proof.Machine
end

