-- ==== Sys2Proof/Machine/Batch.lean ====
section
/-! DEFINITION. The batch engine around the instructions: launch and reset, the start of a batch call, and the host's turns. -/

namespace Sys2Proof.Machine

/-- Reset (R801): RAM zero with the firmware's bytes in place, MMIO zero, every hart and device register at its reset value
(R170). The host-owned `kbd`, `console` and `present` are left as they are; so are the parameters, the firmware image (R802),
and what State lists of the host's doings. -/
def State.resetAll (s : State) : State :=
  { State.reset with
    cfg := s.cfg
    firmware := s.firmware
    pc := s.cfg.ramBase
    mem := Memory.ofImage s.cfg.ramBase.toNat s.firmware
    present := s.present
    kbd := s.kbd
    console := s.console
    turns := s.turns
    keyFeed := s.keyFeed
    draws := s.draws }

/-- Cold start with a configuration and a firmware image: reset, with `kbd` and `console` empty and `present` zero (R801). -/
def coldStart (c : Config) (firmware : List Byte) : State :=
  { State.reset with cfg := c, firmware := firmware }.resetAll

/-- A launch: refused for an illegal configuration (R13) or an image larger than RAM (R803); an empty image and one of exactly
`RAM_SIZE` bytes are accepted (R802). -/
def launch (c : Config) (firmware : List Byte) : Except LaunchError State :=
  if ¬ c.Valid then .error .illegalConfiguration
  else if c.ramSize.toNat < firmware.length then .error .firmwareTooLarge
  else .ok (coldStart c firmware)

/-- Step 1 of a batch call: the timer advances and MTIP is recomputed (R740). -/
def State.updateTimer (s : State) (elapsed : Word) : State :=
  { s with
    mtime := s.mtime + elapsed.setWidth 64
    mtip := decide (s.mtimecmp.toNat ≤ (s.mtime + elapsed.setWidth 64).toNat) }

/-- Step 2 of a batch call: the wait is released when MTIP and MTIE are both 1 (R741). -/
def State.releaseWait (s : State) : State := if s.wakes then { s with wfi := false } else s

/-- Step 3 of a batch call and the start of step 4: the timer interrupt is taken and the call returns, or the instructions
begin with the whole budget (R742, R760). -/
def State.deliverInterrupt (s : State) (budget : Nat) : State :=
  if s.interruptDue then (s.trapEntry timerCause 0 s.pc).endBatch .continues
  else { s with phase := .running budget }

/-- A batch call up to its first instruction: steps 1 to 3 of R760. A hart that still waits returns `idle` (R741). -/
def State.startBatch (s : State) (elapsed : Word) (budget : Nat) : State :=
  if (s.updateTimer elapsed).releaseWait.wfi then (s.updateTimer elapsed).releaseWait.endBatch .idle
  else (s.updateTimer elapsed).releaseWait.deliverInterrupt budget

/-- The host's next turn: from State's list where it has one, else a free value (log entry 4). -/
def State.nextTurn (s : State) : HostTurn :=
  match s.turns with
  | t :: _ => t
  | [] => Config.hostTurn s.draws

/-- The turn is used up. -/
def State.dropTurn (s : State) : State :=
  match s.turns with
  | _ :: rest => { s with turns := rest }
  | [] => { s with draws := s.draws + 1 }

/-- The host's `vblank <- 1` between two batch calls, which it may make or not (R772). -/
def State.hostVblank (s : State) (set : Bool) : State := if set then { s with vblank := true } else s

/-- The host's turn before the first call after a cold start: it calls. The two moves that R770 puts between batch calls, the
`vblank` set and the cancellation, are not possible yet: a set is not performed, and a stop is passed over (log entry 10). -/
def hostFirstCall (s : State) : State :=
  match s.nextTurn with
  | .call _ elapsed budget => s.dropTurn.startBatch elapsed budget
  | .stop => s.dropTurn

/-- The host's turn between two calls when the run goes on: it calls, or it stops (R770, R776). -/
def hostCall (s : State) : State :=
  match s.nextTurn with
  | .call setVblank elapsed budget => (s.dropTurn.hostVblank setVblank).startBatch elapsed budget
  | .stop => { s.dropTurn with phase := .stopped }

/-- The host's turn after a `restart` result: it performs the reset, and its call is the next step (R254, R801); or the reload
fails, or it stops, and the run ends (R802, R776; log entry 8). -/
def hostRestart (s : State) : State :=
  match s.nextTurn with
  | .call _ _ _ => { s.resetAll with phase := .rebooted }
  | .stop => { s.dropTurn with phase := .stopped }

end Sys2Proof.Machine
end

