-- ==== Sys2Proof/Machine/Alu.lean ====
section
/-! DEFINITION. RV32I integer computation: LUI, AUIPC, the register-immediate and the register-register operations (R400 to
R421). Every one completes with `x[rd] <- result` and `pc + 4`. -/

namespace Sys2Proof.Machine

/-- LUI: `x[rd] <- immU` (R400). -/
def execLui (rd : Reg) (imm : BitVec 20) (s : State) : Result := .next (s.retire rd (upper20 imm))

/-- AUIPC: `x[rd] <- pc + immU` (R401). -/
def execAuipc (rd : Reg) (imm : BitVec 20) (s : State) : Result := .next (s.retire rd (s.pc + upper20 imm))

/-- A register-immediate operation: `x[rd] <- op(x[rs1], immI)` (R402 to R407). -/
def immOp (op : Word → Word → Word) (rd rs1 : Reg) (imm : BitVec 12) (s : State) : Result :=
  .next (s.retire rd (op (s.x rs1) (signed12 imm)))

/-- ADDI (R402). -/
def execAddi (rd rs1 : Reg) (imm : BitVec 12) (s : State) : Result := immOp (fun a b => a + b) rd rs1 imm s

/-- SLTI: signed comparison (R403). -/
def execSlti (rd rs1 : Reg) (imm : BitVec 12) (s : State) : Result :=
  immOp (fun a b => truthWord (a.slt b)) rd rs1 imm s

/-- SLTIU: the sign-extended immediate compared unsigned (R404). -/
def execSltiu (rd rs1 : Reg) (imm : BitVec 12) (s : State) : Result :=
  immOp (fun a b => truthWord (a.ult b)) rd rs1 imm s

/-- XORI (R405). -/
def execXori (rd rs1 : Reg) (imm : BitVec 12) (s : State) : Result := immOp (fun a b => a ^^^ b) rd rs1 imm s

/-- ORI (R406). -/
def execOri (rd rs1 : Reg) (imm : BitVec 12) (s : State) : Result := immOp (fun a b => a ||| b) rd rs1 imm s

/-- ANDI (R407). -/
def execAndi (rd rs1 : Reg) (imm : BitVec 12) (s : State) : Result := immOp (fun a b => a &&& b) rd rs1 imm s

/-- A shift by an immediate amount: `x[rd] <- op(x[rs1], shamt)` (R408 to R410). -/
def immShift (op : Word → Nat → Word) (rd rs1 : Reg) (shamt : BitVec 5) (s : State) : Result :=
  .next (s.retire rd (op (s.x rs1) shamt.toNat))

/-- SLLI (R408). -/
def execSlli (rd rs1 : Reg) (shamt : BitVec 5) (s : State) : Result := immShift (fun a n => a <<< n) rd rs1 shamt s

/-- SRLI (R409). -/
def execSrli (rd rs1 : Reg) (shamt : BitVec 5) (s : State) : Result := immShift (fun a n => a >>> n) rd rs1 shamt s

/-- SRAI (R410). -/
def execSrai (rd rs1 : Reg) (shamt : BitVec 5) (s : State) : Result :=
  immShift (fun a n => a.sshiftRight n) rd rs1 shamt s

/-- A register-register operation: `x[rd] <- op(x[rs1], x[rs2])`, both read before `rd` is written (R411 to R421, R550). -/
def regOp (op : Word → Word → Word) (rd rs1 rs2 : Reg) (s : State) : Result :=
  .next (s.retire rd (op (s.x rs1) (s.x rs2)))

/-- ADD (R411). -/
def execAdd (rd rs1 rs2 : Reg) (s : State) : Result := regOp (fun a b => a + b) rd rs1 rs2 s

/-- SUB (R412). -/
def execSub (rd rs1 rs2 : Reg) (s : State) : Result := regOp (fun a b => a - b) rd rs1 rs2 s

/-- SLL: by bits 4:0 of `x[rs2]` (R413). -/
def execSll (rd rs1 rs2 : Reg) (s : State) : Result := regOp (fun a b => a <<< shiftAmount b) rd rs1 rs2 s

/-- SLT: signed comparison (R414). -/
def execSlt (rd rs1 rs2 : Reg) (s : State) : Result := regOp (fun a b => truthWord (a.slt b)) rd rs1 rs2 s

/-- SLTU: unsigned comparison (R415). -/
def execSltu (rd rs1 rs2 : Reg) (s : State) : Result := regOp (fun a b => truthWord (a.ult b)) rd rs1 rs2 s

/-- XOR (R416). -/
def execXor (rd rs1 rs2 : Reg) (s : State) : Result := regOp (fun a b => a ^^^ b) rd rs1 rs2 s

/-- SRL: by bits 4:0 of `x[rs2]` (R417). -/
def execSrl (rd rs1 rs2 : Reg) (s : State) : Result := regOp (fun a b => a >>> shiftAmount b) rd rs1 rs2 s

/-- SRA: by bits 4:0 of `x[rs2]`, bit 31 entering at the top (R418). -/
def execSra (rd rs1 rs2 : Reg) (s : State) : Result :=
  regOp (fun a b => a.sshiftRight (shiftAmount b)) rd rs1 rs2 s

/-- OR (R419). -/
def execOr (rd rs1 rs2 : Reg) (s : State) : Result := regOp (fun a b => a ||| b) rd rs1 rs2 s

/-- AND (R420). -/
def execAnd (rd rs1 rs2 : Reg) (s : State) : Result := regOp (fun a b => a &&& b) rd rs1 rs2 s

end Sys2Proof.Machine
end

