-- ==== Sys2Proof/Machine/Atomics.lean ====
section
/-! DEFINITION. RV32A atomics: LR.W, SC.W and the nine AMOs (R600 to R613). The `aq` and `rl` bits have no effect (R602). -/

namespace Sys2Proof.Machine

/-- The reservation set by LR.W (R113, R600). -/
def State.reserve (s : State) (a : Word) : State := { s with resvValid := true, resvAddr := a }

/-- The reservation consumed by SC.W, on success or failure (R113, R601). -/
def State.clearReservation (s : State) : State := { s with resvValid := false }

/-- Whether an SC.W to `a` succeeds: a valid reservation at the same address (R601). -/
def State.reserved (s : State) (a : Word) : Bool := s.resvValid && decide (s.resvAddr = a)

/-- LR.W: the word is read from RAM, the reservation records the address, `x[rd]` takes the word (R600). -/
def execLrW (rd rs1 : Reg) (_aq _rl : Bool) (s : State) : Result :=
  match memRead (s.x rs1) .word .lr s with
  | .error e => raise e s
  | .ok (v, s') => .next ((s'.reserve (s.x rs1)).retire rd v)

/-- SC.W: checked whether or not the reservation holds; the reservation is always cleared; on success the word is stored and
`x[rd] <- 0`, else memory is unchanged and `x[rd] <- 1` (R601). -/
def execScW (rd rs1 rs2 : Reg) (_aq _rl : Bool) (s : State) : Result :=
  match writeCheck s.cfg (s.x rs1) .word .amo with
  | some e => raise e s
  | none =>
    if s.reserved (s.x rs1) then .next ((writeValue (s.x rs1) .word (s.x rs2) s.clearReservation).retire rd 0)
    else .next (s.clearReservation.retire rd 1)

/-- An AMO, one indivisible read-modify-write: the old word goes to `x[rd]`, `op(old, x[rs2])` to memory (R603). -/
def amoWith (op : Word → Word → Word) (rd rs1 rs2 : Reg) (s : State) : Result :=
  match memRead (s.x rs1) .word .amo s with
  | .error e => raise e s
  | .ok (old, s1) =>
    match memWrite (s.x rs1) .word (op old (s.x rs2)) .amo s1 with
    | .error e => raise e s
    | .ok s2 => .next (s2.retire rd old)

/-- Signed minimum (R609). -/
def minSigned (old b : Word) : Word := if old.slt b then old else b

/-- Signed maximum (R610). -/
def maxSigned (old b : Word) : Word := if b.slt old then old else b

/-- Unsigned minimum (R611). -/
def minUnsigned (old b : Word) : Word := if old.ult b then old else b

/-- Unsigned maximum (R612). -/
def maxUnsigned (old b : Word) : Word := if b.ult old then old else b

/-- AMOSWAP.W (R604). -/
def execAmoswapW (rd rs1 rs2 : Reg) (_aq _rl : Bool) (s : State) : Result := amoWith (fun _ b => b) rd rs1 rs2 s

/-- AMOADD.W (R605). -/
def execAmoaddW (rd rs1 rs2 : Reg) (_aq _rl : Bool) (s : State) : Result := amoWith (fun old b => old + b) rd rs1 rs2 s

/-- AMOXOR.W (R606). -/
def execAmoxorW (rd rs1 rs2 : Reg) (_aq _rl : Bool) (s : State) : Result := amoWith (fun old b => old ^^^ b) rd rs1 rs2 s

/-- AMOAND.W (R607). -/
def execAmoandW (rd rs1 rs2 : Reg) (_aq _rl : Bool) (s : State) : Result := amoWith (fun old b => old &&& b) rd rs1 rs2 s

/-- AMOOR.W (R608). -/
def execAmoorW (rd rs1 rs2 : Reg) (_aq _rl : Bool) (s : State) : Result := amoWith (fun old b => old ||| b) rd rs1 rs2 s

/-- AMOMIN.W (R609). -/
def execAmominW (rd rs1 rs2 : Reg) (_aq _rl : Bool) (s : State) : Result := amoWith minSigned rd rs1 rs2 s

/-- AMOMAX.W (R610). -/
def execAmomaxW (rd rs1 rs2 : Reg) (_aq _rl : Bool) (s : State) : Result := amoWith maxSigned rd rs1 rs2 s

/-- AMOMINU.W (R611). -/
def execAmominuW (rd rs1 rs2 : Reg) (_aq _rl : Bool) (s : State) : Result := amoWith minUnsigned rd rs1 rs2 s

/-- AMOMAXU.W (R612). -/
def execAmomaxuW (rd rs1 rs2 : Reg) (_aq _rl : Bool) (s : State) : Result := amoWith maxUnsigned rd rs1 rs2 s

end Sys2Proof.Machine
end

