-- ==== Sys2Proof/Machine/Control.lean ====
section
/-! DEFINITION. RV32I control transfer: JAL, JALR and the six branches (R450 to R460). -/

namespace Sys2Proof.Machine

/-- A jump to `t` that links `pc + 4` in `rd`, or the misaligned-target exception before any write (R450 to R452). -/
def jumpTo (t : Word) (rd : Reg) (s : State) : Result :=
  match checkTarget t with
  | .error e => raise e s
  | .ok t => .next ((s.setX rd (s.pc + 4)).setPc t)

/-- JAL (R451). -/
def execJal (rd : Reg) (off : BitVec 21) (s : State) : Result := jumpTo (s.jalTarget off) rd s

/-- JALR: the target is computed from `x[rs1]` before `rd` is written (R452). -/
def execJalr (rd rs1 : Reg) (imm : BitVec 12) (s : State) : Result := jumpTo (s.jalrTarget rs1 imm) rd s

/-- A conditional branch: taken, it goes to the checked target; not taken, it never raises (R450, R460). -/
def branchIf (cond : Word → Word → Bool) (rs1 rs2 : Reg) (off : BitVec 13) (s : State) : Result :=
  if cond (s.x rs1) (s.x rs2) then
    match checkTarget (s.branchTarget off) with
    | .error e => raise e s
    | .ok t => .next (s.setPc t)
  else .next s.advance

/-- BEQ (R453). -/
def execBeq (rs1 rs2 : Reg) (off : BitVec 13) (s : State) : Result := branchIf (fun a b => a == b) rs1 rs2 off s

/-- BNE (R454). -/
def execBne (rs1 rs2 : Reg) (off : BitVec 13) (s : State) : Result := branchIf (fun a b => a != b) rs1 rs2 off s

/-- BLT: signed (R455). -/
def execBlt (rs1 rs2 : Reg) (off : BitVec 13) (s : State) : Result := branchIf (fun a b => a.slt b) rs1 rs2 off s

/-- BGE: signed, equal operands take the branch (R456). -/
def execBge (rs1 rs2 : Reg) (off : BitVec 13) (s : State) : Result := branchIf (fun a b => !a.slt b) rs1 rs2 off s

/-- BLTU: unsigned (R457). -/
def execBltu (rs1 rs2 : Reg) (off : BitVec 13) (s : State) : Result := branchIf (fun a b => a.ult b) rs1 rs2 off s

/-- BGEU: unsigned, equal operands take the branch (R458). -/
def execBgeu (rs1 rs2 : Reg) (off : BitVec 13) (s : State) : Result := branchIf (fun a b => !a.ult b) rs1 rs2 off s

end Sys2Proof.Machine
end

