-- ==== Sys2Proof/Machine/LoadStore.lean ====
section
/-! DEFINITION. RV32I loads and stores (R500 to R511). -/

namespace Sys2Proof.Machine

/-- A load: `v <- MemRead(ea, n, load)`, then `x[rd] <- ext(v)`; an exception comes before any effect (R510). -/
def loadInto (w : Width) (ext : Word → Word) (rd rs1 : Reg) (imm : BitVec 12) (s : State) : Result :=
  match memRead (s.effectiveAddr rs1 imm) w .load s with
  | .error e => raise e s
  | .ok (v, s') => .next (s'.retire rd (ext v))

/-- LB (R501). -/
def execLb (rd rs1 : Reg) (imm : BitVec 12) (s : State) : Result := loadInto .byte sext8 rd rs1 imm s

/-- LH (R502). -/
def execLh (rd rs1 : Reg) (imm : BitVec 12) (s : State) : Result := loadInto .half sext16 rd rs1 imm s

/-- LW (R503). -/
def execLw (rd rs1 : Reg) (imm : BitVec 12) (s : State) : Result := loadInto .word id rd rs1 imm s

/-- LBU (R504). -/
def execLbu (rd rs1 : Reg) (imm : BitVec 12) (s : State) : Result := loadInto .byte zext8 rd rs1 imm s

/-- LHU (R505). -/
def execLhu (rd rs1 : Reg) (imm : BitVec 12) (s : State) : Result := loadInto .half zext16 rd rs1 imm s

/-- A store: `MemWrite(ea, n, x[rs2], store)` with the full 32-bit register value; an exception comes before any effect
(R511). -/
def storeFrom (w : Width) (rs1 rs2 : Reg) (imm : BitVec 12) (s : State) : Result :=
  match memWrite (s.effectiveAddr rs1 imm) w (s.x rs2) .store s with
  | .error e => raise e s
  | .ok s' => .next s'.advance

/-- SB (R506). -/
def execSb (rs1 rs2 : Reg) (imm : BitVec 12) (s : State) : Result := storeFrom .byte rs1 rs2 imm s

/-- SH (R507). -/
def execSh (rs1 rs2 : Reg) (imm : BitVec 12) (s : State) : Result := storeFrom .half rs1 rs2 imm s

/-- SW (R508). -/
def execSw (rs1 rs2 : Reg) (imm : BitVec 12) (s : State) : Result := storeFrom .word rs1 rs2 imm s

end Sys2Proof.Machine
end

