-- ==== Sys2Proof/Machine/MulDiv.lean ====
section
/-! DEFINITION. RV32M multiply, divide and remainder (R550 to R559): arithmetic on mathematical integers, reduced to 32 bits at
the end. -/

namespace Sys2Proof.Machine

/-- Bits 63:32 of an integer product, as a 32-bit word: `(p >> 32)[31:0]` (R552 to R554). -/
def highWord (p : Int) : Word := BitVec.ofInt 32 (p / 2 ^ 32)

/-- The low word of the product (R551). -/
def mulLow (a b : Word) : Word := a * b

/-- Signed by signed (R552). -/
def mulHighSS (a b : Word) : Word := highWord (a.toInt * b.toInt)

/-- Signed by unsigned (R553). -/
def mulHighSU (a b : Word) : Word := highWord (a.toInt * (b.toNat : Int))

/-- Unsigned by unsigned (R554). -/
def mulHighUU (a b : Word) : Word := highWord ((a.toNat : Int) * (b.toNat : Int))

/-- Signed quotient, truncated toward zero, with the sentinels of R559 (R555). -/
def divSigned (a b : Word) : Word :=
  if b = 0 then 0xFFFFFFFF
  else if a = 0x80000000 ∧ b = 0xFFFFFFFF then 0x80000000
  else BitVec.ofInt 32 (a.toInt.tdiv b.toInt)

/-- Unsigned quotient (R556). -/
def divUnsigned (a b : Word) : Word := if b = 0 then 0xFFFFFFFF else BitVec.ofNat 32 (a.toNat / b.toNat)

/-- Signed remainder, with the sign of the dividend, and the sentinels of R559 (R557). -/
def remSigned (a b : Word) : Word :=
  if b = 0 then a
  else if a = 0x80000000 ∧ b = 0xFFFFFFFF then 0
  else BitVec.ofInt 32 (a.toInt - b.toInt * a.toInt.tdiv b.toInt)

/-- Unsigned remainder (R558). -/
def remUnsigned (a b : Word) : Word := if b = 0 then a else BitVec.ofNat 32 (a.toNat % b.toNat)

/-- MUL (R551). -/
def execMul (rd rs1 rs2 : Reg) (s : State) : Result := regOp mulLow rd rs1 rs2 s

/-- MULH (R552). -/
def execMulh (rd rs1 rs2 : Reg) (s : State) : Result := regOp mulHighSS rd rs1 rs2 s

/-- MULHSU (R553). -/
def execMulhsu (rd rs1 rs2 : Reg) (s : State) : Result := regOp mulHighSU rd rs1 rs2 s

/-- MULHU (R554). -/
def execMulhu (rd rs1 rs2 : Reg) (s : State) : Result := regOp mulHighUU rd rs1 rs2 s

/-- DIV (R555). -/
def execDiv (rd rs1 rs2 : Reg) (s : State) : Result := regOp divSigned rd rs1 rs2 s

/-- DIVU (R556). -/
def execDivu (rd rs1 rs2 : Reg) (s : State) : Result := regOp divUnsigned rd rs1 rs2 s

/-- REM (R557). -/
def execRem (rd rs1 rs2 : Reg) (s : State) : Result := regOp remSigned rd rs1 rs2 s

/-- REMU (R558). -/
def execRemu (rd rs1 rs2 : Reg) (s : State) : Result := regOp remUnsigned rd rs1 rs2 s

end Sys2Proof.Machine
end

