-- ==== Sys2Proof/Syntax.lean ====
section
/-! DEFINITION. The instructions: one constructor for each of the 68 rows of R311 and spec/opcode_table.json. -/

namespace Sys2Proof

/-- An instruction with its operand fields (R301, R303).
A 12-bit `imm` and a 20-bit `imm` are the field of the word; `off` is the byte offset of a branch (13 bits) or of JAL (21
bits), whose bit 0 is 0 in every well-formed instruction; `shamt` and `uimm` are 5 bits; `aq` and `rl` are the ordering bits. -/
inductive Instr
  | lui (rd : Reg) (imm : BitVec 20)  -- R400: load upper immediate
  | auipc (rd : Reg) (imm : BitVec 20)  -- R401: add upper immediate to pc
  | addi (rd rs1 : Reg) (imm : BitVec 12)  -- R402
  | slti (rd rs1 : Reg) (imm : BitVec 12)  -- R403
  | sltiu (rd rs1 : Reg) (imm : BitVec 12)  -- R404
  | xori (rd rs1 : Reg) (imm : BitVec 12)  -- R405
  | ori (rd rs1 : Reg) (imm : BitVec 12)  -- R406
  | andi (rd rs1 : Reg) (imm : BitVec 12)  -- R407
  | slli (rd rs1 : Reg) (shamt : BitVec 5)  -- R408
  | srli (rd rs1 : Reg) (shamt : BitVec 5)  -- R409
  | srai (rd rs1 : Reg) (shamt : BitVec 5)  -- R410
  | add (rd rs1 rs2 : Reg)  -- R411
  | sub (rd rs1 rs2 : Reg)  -- R412
  | sll (rd rs1 rs2 : Reg)  -- R413
  | slt (rd rs1 rs2 : Reg)  -- R414
  | sltu (rd rs1 rs2 : Reg)  -- R415
  | xor (rd rs1 rs2 : Reg)  -- R416
  | srl (rd rs1 rs2 : Reg)  -- R417
  | sra (rd rs1 rs2 : Reg)  -- R418
  | or (rd rs1 rs2 : Reg)  -- R419
  | and (rd rs1 rs2 : Reg)  -- R420
  | jal (rd : Reg) (off : BitVec 21)  -- R451: jump and link
  | jalr (rd rs1 : Reg) (imm : BitVec 12)  -- R452: jump and link register
  | beq (rs1 rs2 : Reg) (off : BitVec 13)  -- R453
  | bne (rs1 rs2 : Reg) (off : BitVec 13)  -- R454
  | blt (rs1 rs2 : Reg) (off : BitVec 13)  -- R455
  | bge (rs1 rs2 : Reg) (off : BitVec 13)  -- R456
  | bltu (rs1 rs2 : Reg) (off : BitVec 13)  -- R457
  | bgeu (rs1 rs2 : Reg) (off : BitVec 13)  -- R458
  | lb (rd rs1 : Reg) (imm : BitVec 12)  -- R501
  | lh (rd rs1 : Reg) (imm : BitVec 12)  -- R502
  | lw (rd rs1 : Reg) (imm : BitVec 12)  -- R503
  | lbu (rd rs1 : Reg) (imm : BitVec 12)  -- R504
  | lhu (rd rs1 : Reg) (imm : BitVec 12)  -- R505
  | sb (rs1 rs2 : Reg) (imm : BitVec 12)  -- R506
  | sh (rs1 rs2 : Reg) (imm : BitVec 12)  -- R507
  | sw (rs1 rs2 : Reg) (imm : BitVec 12)  -- R508
  | mul (rd rs1 rs2 : Reg)  -- R551
  | mulh (rd rs1 rs2 : Reg)  -- R552
  | mulhsu (rd rs1 rs2 : Reg)  -- R553
  | mulhu (rd rs1 rs2 : Reg)  -- R554
  | div (rd rs1 rs2 : Reg)  -- R555
  | divu (rd rs1 rs2 : Reg)  -- R556
  | rem (rd rs1 rs2 : Reg)  -- R557
  | remu (rd rs1 rs2 : Reg)  -- R558
  | lrW (rd rs1 : Reg) (aq rl : Bool)  -- R600: load-reserved word
  | scW (rd rs1 rs2 : Reg) (aq rl : Bool)  -- R601: store-conditional word
  | amoswapW (rd rs1 rs2 : Reg) (aq rl : Bool)  -- R604
  | amoaddW (rd rs1 rs2 : Reg) (aq rl : Bool)  -- R605
  | amoxorW (rd rs1 rs2 : Reg) (aq rl : Bool)  -- R606
  | amoandW (rd rs1 rs2 : Reg) (aq rl : Bool)  -- R607
  | amoorW (rd rs1 rs2 : Reg) (aq rl : Bool)  -- R608
  | amominW (rd rs1 rs2 : Reg) (aq rl : Bool)  -- R609
  | amomaxW (rd rs1 rs2 : Reg) (aq rl : Bool)  -- R610
  | amominuW (rd rs1 rs2 : Reg) (aq rl : Bool)  -- R611
  | amomaxuW (rd rs1 rs2 : Reg) (aq rl : Bool)  -- R612
  | fence (rd rs1 : Reg) (succ pred fm : BitVec 4)  -- R650: memory and I/O fence; its reserved fields are kept (R322)
  | fenceI (rd rs1 : Reg) (imm : BitVec 12)  -- R651: instruction-fetch fence; its reserved fields are kept (R322)
  | ecall  -- R660: environment call
  | ebreak  -- R661: breakpoint
  | mret  -- R662: return from machine-mode trap
  | wfi  -- R663: wait for interrupt
  | csrrw (rd rs1 : Reg) (csr : CsrNum)  -- R671
  | csrrs (rd rs1 : Reg) (csr : CsrNum)  -- R672
  | csrrc (rd rs1 : Reg) (csr : CsrNum)  -- R673
  | csrrwi (rd : Reg) (uimm : BitVec 5) (csr : CsrNum)  -- R674
  | csrrsi (rd : Reg) (uimm : BitVec 5) (csr : CsrNum)  -- R675
  | csrrci (rd : Reg) (uimm : BitVec 5) (csr : CsrNum)  -- R676
  deriving DecidableEq, Repr

end Sys2Proof
end

