-- ==== Sys2Proof/WellFormed.lean ====
section
/-! DEFINITION. Which instructions are well formed: those that some word encodes. -/

namespace Sys2Proof

/-- Every field of an instruction has the width of its field in the word, so the one thing left to check is R303's "Their bit
0 is always 0": a branch or JAL offset is even. -/
def Instr.wellFormed (i : Instr) : Bool :=
  match i with
  | .jal _ off => !off.getLsbD 0
  | .beq _ _ off => !off.getLsbD 0
  | .bne _ _ off => !off.getLsbD 0
  | .blt _ _ off => !off.getLsbD 0
  | .bge _ _ off => !off.getLsbD 0
  | .bltu _ _ off => !off.getLsbD 0
  | .bgeu _ _ off => !off.getLsbD 0
  | .lui _ _ | .auipc _ _ | .addi _ _ _ | .slti _ _ _ | .sltiu _ _ _ | .xori _ _ _ | .ori _ _ _ | .andi _ _ _
  | .slli _ _ _ | .srli _ _ _ | .srai _ _ _ | .add _ _ _ | .sub _ _ _ | .sll _ _ _ | .slt _ _ _ | .sltu _ _ _
  | .xor _ _ _ | .srl _ _ _ | .sra _ _ _ | .or _ _ _ | .and _ _ _ | .jalr _ _ _ | .lb _ _ _ | .lh _ _ _ | .lw _ _ _
  | .lbu _ _ _ | .lhu _ _ _ | .sb _ _ _ | .sh _ _ _ | .sw _ _ _ | .mul _ _ _ | .mulh _ _ _ | .mulhsu _ _ _
  | .mulhu _ _ _ | .div _ _ _ | .divu _ _ _ | .rem _ _ _ | .remu _ _ _ | .lrW _ _ _ _ | .scW _ _ _ _ _
  | .amoswapW _ _ _ _ _ | .amoaddW _ _ _ _ _ | .amoxorW _ _ _ _ _ | .amoandW _ _ _ _ _ | .amoorW _ _ _ _ _
  | .amominW _ _ _ _ _ | .amomaxW _ _ _ _ _ | .amominuW _ _ _ _ _ | .amomaxuW _ _ _ _ _ | .fence _ _ _ _ _
  | .fenceI _ _ _ | .ecall | .ebreak | .mret | .wfi | .csrrw _ _ _ | .csrrs _ _ _ | .csrrc _ _ _ | .csrrwi _ _ _
  | .csrrsi _ _ _ | .csrrci _ _ _ => true

end Sys2Proof
end

