-- ==== Sys2Proof/Decode.lean ====
section
/-! DEFINITION. The decoder (total on all words and on all byte lists, rejecting by name), the opcode table of R311, and after
them the encoder. -/

namespace Sys2Proof

/-! ### Fields and immediates (R301, R303) -/

/-- `opcode`, bits 6:0 (R301). -/
def opcodeOf (w : Word) : BitVec 7 := w.extractLsb' 0 7
/-- `rd`, bits 11:7 (R301). -/
def rdOf (w : Word) : Reg := w.extractLsb' 7 5
/-- `funct3`, bits 14:12 (R301). -/
def funct3Of (w : Word) : BitVec 3 := w.extractLsb' 12 3
/-- `rs1` (or `uimm`), bits 19:15 (R301). -/
def rs1Of (w : Word) : Reg := w.extractLsb' 15 5
/-- `rs2` (or `shamt`), bits 24:20 (R301). -/
def rs2Of (w : Word) : Reg := w.extractLsb' 20 5
/-- `funct7`, bits 31:25 (R301). -/
def funct7Of (w : Word) : BitVec 7 := w.extractLsb' 25 7
/-- `funct5`, bits 31:27 (R301). -/
def funct5Of (w : Word) : BitVec 5 := w.extractLsb' 27 5
/-- `aq`, bit 26 (R301). -/
def aqOf (w : Word) : Bool := w.getLsbD 26
/-- `rl`, bit 25 (R301). -/
def rlOf (w : Word) : Bool := w.getLsbD 25
/-- `imm[11:0]` of the I format, and `csr`: bits 31:20 (R302, R303). -/
def imm12Of (w : Word) : BitVec 12 := w.extractLsb' 20 12
/-- `imm[31:12]` of the U format: bits 31:12 (R302). -/
def imm20Of (w : Word) : BitVec 20 := w.extractLsb' 12 20
/-- The S immediate, inst[31:25], inst[11:7] (R303). -/
def immSOf (w : Word) : BitVec 12 := w.extractLsb' 25 7 ++ w.extractLsb' 7 5
/-- The B offset, inst[31], inst[7], inst[30:25], inst[11:8], 0 (R303). -/
def immBOf (w : Word) : BitVec 13 :=
  w.extractLsb' 31 1 ++ w.extractLsb' 7 1 ++ w.extractLsb' 25 6 ++ w.extractLsb' 8 4 ++ 0#1
/-- The J offset, inst[31], inst[19:12], inst[20], inst[30:21], 0 (R303). -/
def immJOf (w : Word) : BitVec 21 :=
  w.extractLsb' 31 1 ++ w.extractLsb' 12 8 ++ w.extractLsb' 20 1 ++ w.extractLsb' 21 10 ++ 0#1

/-! ### The decoder (R310, R320, R321) -/

/-- Why a word is `Illegal` (R320); all three raise `IllegalInstruction` with the word as trap value (R701). -/
inductive DecodeReject
  | compressed  -- inst[1:0] is not 11: a 16-bit encoding, and C is not implemented (R300)
  | opcode      -- the major opcode is marked illegal in R310
  | minor       -- the major opcode is implemented, but a fixed field fits no row (R321)
  | truncated   -- fewer than four bytes were given
  deriving DecidableEq, Repr

/-- OP-IMM (R310): the register-immediate operations. DESIGN CHOICE (log entry 22): R330 calls every Zicbo* encoding illegal
"under rule R320", but the PREFETCH words of Zicbop fit the ORI row with rd = x0, so that R320 decodes them and R323 makes them
HINTs; the model decodes them as ORI. -/
def decodeOpImm (w : Word) : Except DecodeReject Instr :=
  match funct3Of w with
  | 0b000#3 => .ok (.addi (rdOf w) (rs1Of w) (imm12Of w))
  | 0b010#3 => .ok (.slti (rdOf w) (rs1Of w) (imm12Of w))
  | 0b011#3 => .ok (.sltiu (rdOf w) (rs1Of w) (imm12Of w))
  | 0b100#3 => .ok (.xori (rdOf w) (rs1Of w) (imm12Of w))
  | 0b110#3 => .ok (.ori (rdOf w) (rs1Of w) (imm12Of w))
  | 0b111#3 => .ok (.andi (rdOf w) (rs1Of w) (imm12Of w))
  | 0b001#3 => if funct7Of w = 0b0000000#7 then .ok (.slli (rdOf w) (rs1Of w) (rs2Of w)) else .error .minor
  | 0b101#3 =>
    if funct7Of w = 0b0000000#7 then .ok (.srli (rdOf w) (rs1Of w) (rs2Of w))
    else if funct7Of w = 0b0100000#7 then .ok (.srai (rdOf w) (rs1Of w) (rs2Of w))
    else .error .minor
  | _ => .error .minor

/-- OP (R310): the register-register operations, M among them; the operation is funct7 and funct3 together. -/
def decodeOp (w : Word) : Except DecodeReject Instr :=
  match funct7Of w, funct3Of w with
  | 0b0000000#7, 0b000#3 => .ok (.add (rdOf w) (rs1Of w) (rs2Of w))
  | 0b0100000#7, 0b000#3 => .ok (.sub (rdOf w) (rs1Of w) (rs2Of w))
  | 0b0000000#7, 0b001#3 => .ok (.sll (rdOf w) (rs1Of w) (rs2Of w))
  | 0b0000000#7, 0b010#3 => .ok (.slt (rdOf w) (rs1Of w) (rs2Of w))
  | 0b0000000#7, 0b011#3 => .ok (.sltu (rdOf w) (rs1Of w) (rs2Of w))
  | 0b0000000#7, 0b100#3 => .ok (.xor (rdOf w) (rs1Of w) (rs2Of w))
  | 0b0000000#7, 0b101#3 => .ok (.srl (rdOf w) (rs1Of w) (rs2Of w))
  | 0b0100000#7, 0b101#3 => .ok (.sra (rdOf w) (rs1Of w) (rs2Of w))
  | 0b0000000#7, 0b110#3 => .ok (.or (rdOf w) (rs1Of w) (rs2Of w))
  | 0b0000000#7, 0b111#3 => .ok (.and (rdOf w) (rs1Of w) (rs2Of w))
  | 0b0000001#7, 0b000#3 => .ok (.mul (rdOf w) (rs1Of w) (rs2Of w))
  | 0b0000001#7, 0b001#3 => .ok (.mulh (rdOf w) (rs1Of w) (rs2Of w))
  | 0b0000001#7, 0b010#3 => .ok (.mulhsu (rdOf w) (rs1Of w) (rs2Of w))
  | 0b0000001#7, 0b011#3 => .ok (.mulhu (rdOf w) (rs1Of w) (rs2Of w))
  | 0b0000001#7, 0b100#3 => .ok (.div (rdOf w) (rs1Of w) (rs2Of w))
  | 0b0000001#7, 0b101#3 => .ok (.divu (rdOf w) (rs1Of w) (rs2Of w))
  | 0b0000001#7, 0b110#3 => .ok (.rem (rdOf w) (rs1Of w) (rs2Of w))
  | 0b0000001#7, 0b111#3 => .ok (.remu (rdOf w) (rs1Of w) (rs2Of w))
  | _, _ => .error .minor

/-- LOAD (R310). -/
def decodeLoad (w : Word) : Except DecodeReject Instr :=
  match funct3Of w with
  | 0b000#3 => .ok (.lb (rdOf w) (rs1Of w) (imm12Of w))
  | 0b001#3 => .ok (.lh (rdOf w) (rs1Of w) (imm12Of w))
  | 0b010#3 => .ok (.lw (rdOf w) (rs1Of w) (imm12Of w))
  | 0b100#3 => .ok (.lbu (rdOf w) (rs1Of w) (imm12Of w))
  | 0b101#3 => .ok (.lhu (rdOf w) (rs1Of w) (imm12Of w))
  | _ => .error .minor

/-- STORE (R310). -/
def decodeStore (w : Word) : Except DecodeReject Instr :=
  match funct3Of w with
  | 0b000#3 => .ok (.sb (rs1Of w) (rs2Of w) (immSOf w))
  | 0b001#3 => .ok (.sh (rs1Of w) (rs2Of w) (immSOf w))
  | 0b010#3 => .ok (.sw (rs1Of w) (rs2Of w) (immSOf w))
  | _ => .error .minor

/-- BRANCH (R310). -/
def decodeBranch (w : Word) : Except DecodeReject Instr :=
  match funct3Of w with
  | 0b000#3 => .ok (.beq (rs1Of w) (rs2Of w) (immBOf w))
  | 0b001#3 => .ok (.bne (rs1Of w) (rs2Of w) (immBOf w))
  | 0b100#3 => .ok (.blt (rs1Of w) (rs2Of w) (immBOf w))
  | 0b101#3 => .ok (.bge (rs1Of w) (rs2Of w) (immBOf w))
  | 0b110#3 => .ok (.bltu (rs1Of w) (rs2Of w) (immBOf w))
  | 0b111#3 => .ok (.bgeu (rs1Of w) (rs2Of w) (immBOf w))
  | _ => .error .minor

/-- JALR: funct3 must be 000 (R321). -/
def decodeJalr (w : Word) : Except DecodeReject Instr :=
  if funct3Of w = 0b000#3 then .ok (.jalr (rdOf w) (rs1Of w) (imm12Of w)) else .error .minor

/-- AMO (R310): funct3 must be 010; funct5 selects the operation; LR.W has rs2 = 0 (R321). -/
def decodeAmo (w : Word) : Except DecodeReject Instr :=
  if funct3Of w = 0b010#3 then
    match funct5Of w with
    | 0b00010#5 =>
      if rs2Of w = 0b00000#5 then .ok (.lrW (rdOf w) (rs1Of w) (aqOf w) (rlOf w)) else .error .minor
    | 0b00011#5 => .ok (.scW (rdOf w) (rs1Of w) (rs2Of w) (aqOf w) (rlOf w))
    | 0b00001#5 => .ok (.amoswapW (rdOf w) (rs1Of w) (rs2Of w) (aqOf w) (rlOf w))
    | 0b00000#5 => .ok (.amoaddW (rdOf w) (rs1Of w) (rs2Of w) (aqOf w) (rlOf w))
    | 0b00100#5 => .ok (.amoxorW (rdOf w) (rs1Of w) (rs2Of w) (aqOf w) (rlOf w))
    | 0b01100#5 => .ok (.amoandW (rdOf w) (rs1Of w) (rs2Of w) (aqOf w) (rlOf w))
    | 0b01000#5 => .ok (.amoorW (rdOf w) (rs1Of w) (rs2Of w) (aqOf w) (rlOf w))
    | 0b10000#5 => .ok (.amominW (rdOf w) (rs1Of w) (rs2Of w) (aqOf w) (rlOf w))
    | 0b10100#5 => .ok (.amomaxW (rdOf w) (rs1Of w) (rs2Of w) (aqOf w) (rlOf w))
    | 0b11000#5 => .ok (.amominuW (rdOf w) (rs1Of w) (rs2Of w) (aqOf w) (rlOf w))
    | 0b11100#5 => .ok (.amomaxuW (rdOf w) (rs1Of w) (rs2Of w) (aqOf w) (rlOf w))
    | _ => .error .minor
  else .error .minor

/-- MISC-MEM (R310): FENCE and FENCE.I with every value of their other fields (R322). -/
def decodeMiscMem (w : Word) : Except DecodeReject Instr :=
  match funct3Of w with
  | 0b000#3 =>
    .ok (.fence (rdOf w) (rs1Of w) (w.extractLsb' 20 4) (w.extractLsb' 24 4) (w.extractLsb' 28 4))
  | 0b001#3 => .ok (.fenceI (rdOf w) (rs1Of w) (imm12Of w))
  | _ => .error .minor

/-- SYSTEM (R310): the four exact words under funct3 = 000, and the six CSR instructions (R321). -/
def decodeSystem (w : Word) : Except DecodeReject Instr :=
  match funct3Of w with
  | 0b000#3 =>
    if w = 0x00000073#32 then .ok .ecall
    else if w = 0x00100073#32 then .ok .ebreak
    else if w = 0x30200073#32 then .ok .mret
    else if w = 0x10500073#32 then .ok .wfi
    else .error .minor
  | 0b001#3 => .ok (.csrrw (rdOf w) (rs1Of w) (imm12Of w))
  | 0b010#3 => .ok (.csrrs (rdOf w) (rs1Of w) (imm12Of w))
  | 0b011#3 => .ok (.csrrc (rdOf w) (rs1Of w) (imm12Of w))
  | 0b101#3 => .ok (.csrrwi (rdOf w) (rs1Of w) (imm12Of w))
  | 0b110#3 => .ok (.csrrsi (rdOf w) (rs1Of w) (imm12Of w))
  | 0b111#3 => .ok (.csrrci (rdOf w) (rs1Of w) (imm12Of w))
  | _ => .error .minor

/-- The decoder: a total function from every 32-bit word to one instruction or `Illegal` (R320), by the major opcode map of
R310. -/
def decode (w : Word) : Except DecodeReject Instr :=
  if w.extractLsb' 0 2 = 0b11#2 then
    match opcodeOf w with
    | 0b0110111#7 => .ok (.lui (rdOf w) (imm20Of w))
    | 0b0010111#7 => .ok (.auipc (rdOf w) (imm20Of w))
    | 0b0010011#7 => decodeOpImm w
    | 0b0110011#7 => decodeOp w
    | 0b1101111#7 => .ok (.jal (rdOf w) (immJOf w))
    | 0b1100111#7 => decodeJalr w
    | 0b1100011#7 => decodeBranch w
    | 0b0000011#7 => decodeLoad w
    | 0b0100011#7 => decodeStore w
    | 0b0101111#7 => decodeAmo w
    | 0b0001111#7 => decodeMiscMem w
    | 0b1110011#7 => decodeSystem w
    | _ => .error .opcode
  else .error .compressed

/-- The word whose byte `k` holds bits `8k+7` to `8k` (R204, R300). -/
def wordOfBytes (b0 b1 b2 b3 : Byte) : Word := b3 ++ b2 ++ b1 ++ b0

/-- The four bytes of a word, the byte at the lowest address first (R204, R300). -/
def bytesOfWord (w : Word) : List Byte :=
  [w.extractLsb' 0 8, w.extractLsb' 8 8, w.extractLsb' 16 8, w.extractLsb' 24 8]

/-- Decode the instruction at the head of a byte list; "The fetch always reads exactly 4 bytes" (R300). -/
def decodeBytes : List Byte → Except DecodeReject (Instr × List Byte)
  | b0 :: b1 :: b2 :: b3 :: rest =>
    match decode (wordOfBytes b0 b1 b2 b3) with
    | .ok i => .ok (i, rest)
    | .error e => .error e
  | _ => .error .truncated

/-- The low `nbits` bits of `w` as a fetched word, the bits above them 0. -/
def tableWord (nbits w : Nat) : Word := BitVec.ofNat 32 (w % 2 ^ nbits)

/-- What the decoder reads from a row of the opcode table: the word laid out as memory holds it, then decoded. -/
def decodeTableWord (nbits w : Nat) : Option Instr :=
  match decodeBytes (bytesOfWord (tableWord nbits w)) with
  | .ok (i, _) => some i
  | .error _ => none

/-! ### The opcode table (R311) -/

/-- A row of R311: "A word `inst` spells instruction X exactly when (inst & mask_X) = match_X". -/
structure Row where
  mnemonic : String
  value    : Word
  mask     : Word
  deriving DecidableEq, Repr

/-- A word spells a row (R311). -/
abbrev Row.Spells (r : Row) (w : Word) : Prop := w &&& r.mask = r.value

/-- RV32I computation (R400 to R420). -/
def rowsAlu : List Row :=
  [⟨"LUI", 0x00000037, 0x0000007F⟩,
   ⟨"AUIPC", 0x00000017, 0x0000007F⟩,
   ⟨"ADDI", 0x00000013, 0x0000707F⟩,
   ⟨"SLTI", 0x00002013, 0x0000707F⟩,
   ⟨"SLTIU", 0x00003013, 0x0000707F⟩,
   ⟨"XORI", 0x00004013, 0x0000707F⟩,
   ⟨"ORI", 0x00006013, 0x0000707F⟩,
   ⟨"ANDI", 0x00007013, 0x0000707F⟩,
   ⟨"SLLI", 0x00001013, 0xFE00707F⟩,
   ⟨"SRLI", 0x00005013, 0xFE00707F⟩,
   ⟨"SRAI", 0x40005013, 0xFE00707F⟩,
   ⟨"ADD", 0x00000033, 0xFE00707F⟩,
   ⟨"SUB", 0x40000033, 0xFE00707F⟩,
   ⟨"SLL", 0x00001033, 0xFE00707F⟩,
   ⟨"SLT", 0x00002033, 0xFE00707F⟩,
   ⟨"SLTU", 0x00003033, 0xFE00707F⟩,
   ⟨"XOR", 0x00004033, 0xFE00707F⟩,
   ⟨"SRL", 0x00005033, 0xFE00707F⟩,
   ⟨"SRA", 0x40005033, 0xFE00707F⟩,
   ⟨"OR", 0x00006033, 0xFE00707F⟩,
   ⟨"AND", 0x00007033, 0xFE00707F⟩]

/-- RV32I control transfer (R451 to R458). -/
def rowsControl : List Row :=
  [⟨"JAL", 0x0000006F, 0x0000007F⟩,
   ⟨"JALR", 0x00000067, 0x0000707F⟩,
   ⟨"BEQ", 0x00000063, 0x0000707F⟩,
   ⟨"BNE", 0x00001063, 0x0000707F⟩,
   ⟨"BLT", 0x00004063, 0x0000707F⟩,
   ⟨"BGE", 0x00005063, 0x0000707F⟩,
   ⟨"BLTU", 0x00006063, 0x0000707F⟩,
   ⟨"BGEU", 0x00007063, 0x0000707F⟩]

/-- RV32I loads and stores (R501 to R508). -/
def rowsMemory : List Row :=
  [⟨"LB", 0x00000003, 0x0000707F⟩,
   ⟨"LH", 0x00001003, 0x0000707F⟩,
   ⟨"LW", 0x00002003, 0x0000707F⟩,
   ⟨"LBU", 0x00004003, 0x0000707F⟩,
   ⟨"LHU", 0x00005003, 0x0000707F⟩,
   ⟨"SB", 0x00000023, 0x0000707F⟩,
   ⟨"SH", 0x00001023, 0x0000707F⟩,
   ⟨"SW", 0x00002023, 0x0000707F⟩]

/-- RV32M (R551 to R558). -/
def rowsMulDiv : List Row :=
  [⟨"MUL", 0x02000033, 0xFE00707F⟩,
   ⟨"MULH", 0x02001033, 0xFE00707F⟩,
   ⟨"MULHSU", 0x02002033, 0xFE00707F⟩,
   ⟨"MULHU", 0x02003033, 0xFE00707F⟩,
   ⟨"DIV", 0x02004033, 0xFE00707F⟩,
   ⟨"DIVU", 0x02005033, 0xFE00707F⟩,
   ⟨"REM", 0x02006033, 0xFE00707F⟩,
   ⟨"REMU", 0x02007033, 0xFE00707F⟩]

/-- RV32A (R600 to R612). -/
def rowsAtomic : List Row :=
  [⟨"LR.W", 0x1000202F, 0xF9F0707F⟩,
   ⟨"SC.W", 0x1800202F, 0xF800707F⟩,
   ⟨"AMOSWAP.W", 0x0800202F, 0xF800707F⟩,
   ⟨"AMOADD.W", 0x0000202F, 0xF800707F⟩,
   ⟨"AMOXOR.W", 0x2000202F, 0xF800707F⟩,
   ⟨"AMOAND.W", 0x6000202F, 0xF800707F⟩,
   ⟨"AMOOR.W", 0x4000202F, 0xF800707F⟩,
   ⟨"AMOMIN.W", 0x8000202F, 0xF800707F⟩,
   ⟨"AMOMAX.W", 0xA000202F, 0xF800707F⟩,
   ⟨"AMOMINU.W", 0xC000202F, 0xF800707F⟩,
   ⟨"AMOMAXU.W", 0xE000202F, 0xF800707F⟩]

/-- MISC-MEM and SYSTEM (R650 to R676). -/
def rowsSystem : List Row :=
  [⟨"FENCE", 0x0000000F, 0x0000707F⟩,
   ⟨"FENCE.I", 0x0000100F, 0x0000707F⟩,
   ⟨"ECALL", 0x00000073, 0xFFFFFFFF⟩,
   ⟨"EBREAK", 0x00100073, 0xFFFFFFFF⟩,
   ⟨"MRET", 0x30200073, 0xFFFFFFFF⟩,
   ⟨"WFI", 0x10500073, 0xFFFFFFFF⟩,
   ⟨"CSRRW", 0x00001073, 0x0000707F⟩,
   ⟨"CSRRS", 0x00002073, 0x0000707F⟩,
   ⟨"CSRRC", 0x00003073, 0x0000707F⟩,
   ⟨"CSRRWI", 0x00005073, 0x0000707F⟩,
   ⟨"CSRRSI", 0x00006073, 0x0000707F⟩,
   ⟨"CSRRCI", 0x00007073, 0x0000707F⟩]

/-- The 68 rows of R311. -/
def opcodeRows : List Row := rowsAlu ++ rowsControl ++ rowsMemory ++ rowsMulDiv ++ rowsAtomic ++ rowsSystem

/-- The mnemonic of an instruction, as R311 spells it. -/
def Instr.mnemonic (i : Instr) : String :=
  match i with
  | .lui _ _ => "LUI"
  | .auipc _ _ => "AUIPC"
  | .addi _ _ _ => "ADDI"
  | .slti _ _ _ => "SLTI"
  | .sltiu _ _ _ => "SLTIU"
  | .xori _ _ _ => "XORI"
  | .ori _ _ _ => "ORI"
  | .andi _ _ _ => "ANDI"
  | .slli _ _ _ => "SLLI"
  | .srli _ _ _ => "SRLI"
  | .srai _ _ _ => "SRAI"
  | .add _ _ _ => "ADD"
  | .sub _ _ _ => "SUB"
  | .sll _ _ _ => "SLL"
  | .slt _ _ _ => "SLT"
  | .sltu _ _ _ => "SLTU"
  | .xor _ _ _ => "XOR"
  | .srl _ _ _ => "SRL"
  | .sra _ _ _ => "SRA"
  | .or _ _ _ => "OR"
  | .and _ _ _ => "AND"
  | .jal _ _ => "JAL"
  | .jalr _ _ _ => "JALR"
  | .beq _ _ _ => "BEQ"
  | .bne _ _ _ => "BNE"
  | .blt _ _ _ => "BLT"
  | .bge _ _ _ => "BGE"
  | .bltu _ _ _ => "BLTU"
  | .bgeu _ _ _ => "BGEU"
  | .lb _ _ _ => "LB"
  | .lh _ _ _ => "LH"
  | .lw _ _ _ => "LW"
  | .lbu _ _ _ => "LBU"
  | .lhu _ _ _ => "LHU"
  | .sb _ _ _ => "SB"
  | .sh _ _ _ => "SH"
  | .sw _ _ _ => "SW"
  | .mul _ _ _ => "MUL"
  | .mulh _ _ _ => "MULH"
  | .mulhsu _ _ _ => "MULHSU"
  | .mulhu _ _ _ => "MULHU"
  | .div _ _ _ => "DIV"
  | .divu _ _ _ => "DIVU"
  | .rem _ _ _ => "REM"
  | .remu _ _ _ => "REMU"
  | .lrW _ _ _ _ => "LR.W"
  | .scW _ _ _ _ _ => "SC.W"
  | .amoswapW _ _ _ _ _ => "AMOSWAP.W"
  | .amoaddW _ _ _ _ _ => "AMOADD.W"
  | .amoxorW _ _ _ _ _ => "AMOXOR.W"
  | .amoandW _ _ _ _ _ => "AMOAND.W"
  | .amoorW _ _ _ _ _ => "AMOOR.W"
  | .amominW _ _ _ _ _ => "AMOMIN.W"
  | .amomaxW _ _ _ _ _ => "AMOMAX.W"
  | .amominuW _ _ _ _ _ => "AMOMINU.W"
  | .amomaxuW _ _ _ _ _ => "AMOMAXU.W"
  | .fence _ _ _ _ _ => "FENCE"
  | .fenceI _ _ _ => "FENCE.I"
  | .ecall => "ECALL"
  | .ebreak => "EBREAK"
  | .mret => "MRET"
  | .wfi => "WFI"
  | .csrrw _ _ _ => "CSRRW"
  | .csrrs _ _ _ => "CSRRS"
  | .csrrc _ _ _ => "CSRRC"
  | .csrrwi _ _ _ => "CSRRWI"
  | .csrrsi _ _ _ => "CSRRSI"
  | .csrrci _ _ _ => "CSRRCI"

/-! ### The encoder (R302, R311) -/

/-- R format (R302). -/
def encodeR (funct7 : BitVec 7) (rs2 rs1 : Reg) (funct3 : BitVec 3) (rd : Reg) (opcode : BitVec 7) : Word :=
  funct7 ++ rs2 ++ rs1 ++ funct3 ++ rd ++ opcode

/-- I format, and I-csr with the CSR number in the immediate's place (R302). -/
def encodeI (imm : BitVec 12) (rs1 : Reg) (funct3 : BitVec 3) (rd : Reg) (opcode : BitVec 7) : Word :=
  imm ++ rs1 ++ funct3 ++ rd ++ opcode

/-- S format (R302). -/
def encodeS (imm : BitVec 12) (rs2 rs1 : Reg) (funct3 : BitVec 3) (opcode : BitVec 7) : Word :=
  imm.extractLsb' 5 7 ++ rs2 ++ rs1 ++ funct3 ++ imm.extractLsb' 0 5 ++ opcode

/-- B format (R302). -/
def encodeB (off : BitVec 13) (rs2 rs1 : Reg) (funct3 : BitVec 3) (opcode : BitVec 7) : Word :=
  off.extractLsb' 12 1 ++ off.extractLsb' 5 6 ++ rs2 ++ rs1 ++ funct3 ++ off.extractLsb' 1 4 ++
    off.extractLsb' 11 1 ++ opcode

/-- U format (R302). -/
def encodeU (imm : BitVec 20) (rd : Reg) (opcode : BitVec 7) : Word := imm ++ rd ++ opcode

/-- J format (R302). -/
def encodeJ (off : BitVec 21) (rd : Reg) (opcode : BitVec 7) : Word :=
  off.extractLsb' 20 1 ++ off.extractLsb' 1 10 ++ off.extractLsb' 11 1 ++ off.extractLsb' 12 8 ++ rd ++ opcode

/-- R-amo format (R302). -/
def encodeAmo (funct5 : BitVec 5) (aq rl : Bool) (rs2 rs1 rd : Reg) : Word :=
  funct5 ++ BitVec.ofBool aq ++ BitVec.ofBool rl ++ rs2 ++ rs1 ++ 0b010#3 ++ rd ++ 0b0101111#7

/-- I-fence format (R302). -/
def encodeFence (fm pred succ : BitVec 4) (rs1 : Reg) (funct3 : BitVec 3) (rd : Reg) : Word :=
  fm ++ pred ++ succ ++ rs1 ++ funct3 ++ rd ++ 0b0001111#7

/-- The word of an instruction, from the formats of R302 and the fixed fields of R311. -/
def encode (i : Instr) : Word :=
  match i with
  | .lui rd imm => encodeU imm rd 0b0110111#7
  | .auipc rd imm => encodeU imm rd 0b0010111#7
  | .addi rd rs1 imm => encodeI imm rs1 0b000#3 rd 0b0010011#7
  | .slti rd rs1 imm => encodeI imm rs1 0b010#3 rd 0b0010011#7
  | .sltiu rd rs1 imm => encodeI imm rs1 0b011#3 rd 0b0010011#7
  | .xori rd rs1 imm => encodeI imm rs1 0b100#3 rd 0b0010011#7
  | .ori rd rs1 imm => encodeI imm rs1 0b110#3 rd 0b0010011#7
  | .andi rd rs1 imm => encodeI imm rs1 0b111#3 rd 0b0010011#7
  | .slli rd rs1 shamt => encodeR 0b0000000#7 shamt rs1 0b001#3 rd 0b0010011#7
  | .srli rd rs1 shamt => encodeR 0b0000000#7 shamt rs1 0b101#3 rd 0b0010011#7
  | .srai rd rs1 shamt => encodeR 0b0100000#7 shamt rs1 0b101#3 rd 0b0010011#7
  | .add rd rs1 rs2 => encodeR 0b0000000#7 rs2 rs1 0b000#3 rd 0b0110011#7
  | .sub rd rs1 rs2 => encodeR 0b0100000#7 rs2 rs1 0b000#3 rd 0b0110011#7
  | .sll rd rs1 rs2 => encodeR 0b0000000#7 rs2 rs1 0b001#3 rd 0b0110011#7
  | .slt rd rs1 rs2 => encodeR 0b0000000#7 rs2 rs1 0b010#3 rd 0b0110011#7
  | .sltu rd rs1 rs2 => encodeR 0b0000000#7 rs2 rs1 0b011#3 rd 0b0110011#7
  | .xor rd rs1 rs2 => encodeR 0b0000000#7 rs2 rs1 0b100#3 rd 0b0110011#7
  | .srl rd rs1 rs2 => encodeR 0b0000000#7 rs2 rs1 0b101#3 rd 0b0110011#7
  | .sra rd rs1 rs2 => encodeR 0b0100000#7 rs2 rs1 0b101#3 rd 0b0110011#7
  | .or rd rs1 rs2 => encodeR 0b0000000#7 rs2 rs1 0b110#3 rd 0b0110011#7
  | .and rd rs1 rs2 => encodeR 0b0000000#7 rs2 rs1 0b111#3 rd 0b0110011#7
  | .jal rd off => encodeJ off rd 0b1101111#7
  | .jalr rd rs1 imm => encodeI imm rs1 0b000#3 rd 0b1100111#7
  | .beq rs1 rs2 off => encodeB off rs2 rs1 0b000#3 0b1100011#7
  | .bne rs1 rs2 off => encodeB off rs2 rs1 0b001#3 0b1100011#7
  | .blt rs1 rs2 off => encodeB off rs2 rs1 0b100#3 0b1100011#7
  | .bge rs1 rs2 off => encodeB off rs2 rs1 0b101#3 0b1100011#7
  | .bltu rs1 rs2 off => encodeB off rs2 rs1 0b110#3 0b1100011#7
  | .bgeu rs1 rs2 off => encodeB off rs2 rs1 0b111#3 0b1100011#7
  | .lb rd rs1 imm => encodeI imm rs1 0b000#3 rd 0b0000011#7
  | .lh rd rs1 imm => encodeI imm rs1 0b001#3 rd 0b0000011#7
  | .lw rd rs1 imm => encodeI imm rs1 0b010#3 rd 0b0000011#7
  | .lbu rd rs1 imm => encodeI imm rs1 0b100#3 rd 0b0000011#7
  | .lhu rd rs1 imm => encodeI imm rs1 0b101#3 rd 0b0000011#7
  | .sb rs1 rs2 imm => encodeS imm rs2 rs1 0b000#3 0b0100011#7
  | .sh rs1 rs2 imm => encodeS imm rs2 rs1 0b001#3 0b0100011#7
  | .sw rs1 rs2 imm => encodeS imm rs2 rs1 0b010#3 0b0100011#7
  | .mul rd rs1 rs2 => encodeR 0b0000001#7 rs2 rs1 0b000#3 rd 0b0110011#7
  | .mulh rd rs1 rs2 => encodeR 0b0000001#7 rs2 rs1 0b001#3 rd 0b0110011#7
  | .mulhsu rd rs1 rs2 => encodeR 0b0000001#7 rs2 rs1 0b010#3 rd 0b0110011#7
  | .mulhu rd rs1 rs2 => encodeR 0b0000001#7 rs2 rs1 0b011#3 rd 0b0110011#7
  | .div rd rs1 rs2 => encodeR 0b0000001#7 rs2 rs1 0b100#3 rd 0b0110011#7
  | .divu rd rs1 rs2 => encodeR 0b0000001#7 rs2 rs1 0b101#3 rd 0b0110011#7
  | .rem rd rs1 rs2 => encodeR 0b0000001#7 rs2 rs1 0b110#3 rd 0b0110011#7
  | .remu rd rs1 rs2 => encodeR 0b0000001#7 rs2 rs1 0b111#3 rd 0b0110011#7
  | .lrW rd rs1 aq rl => encodeAmo 0b00010#5 aq rl 0b00000#5 rs1 rd
  | .scW rd rs1 rs2 aq rl => encodeAmo 0b00011#5 aq rl rs2 rs1 rd
  | .amoswapW rd rs1 rs2 aq rl => encodeAmo 0b00001#5 aq rl rs2 rs1 rd
  | .amoaddW rd rs1 rs2 aq rl => encodeAmo 0b00000#5 aq rl rs2 rs1 rd
  | .amoxorW rd rs1 rs2 aq rl => encodeAmo 0b00100#5 aq rl rs2 rs1 rd
  | .amoandW rd rs1 rs2 aq rl => encodeAmo 0b01100#5 aq rl rs2 rs1 rd
  | .amoorW rd rs1 rs2 aq rl => encodeAmo 0b01000#5 aq rl rs2 rs1 rd
  | .amominW rd rs1 rs2 aq rl => encodeAmo 0b10000#5 aq rl rs2 rs1 rd
  | .amomaxW rd rs1 rs2 aq rl => encodeAmo 0b10100#5 aq rl rs2 rs1 rd
  | .amominuW rd rs1 rs2 aq rl => encodeAmo 0b11000#5 aq rl rs2 rs1 rd
  | .amomaxuW rd rs1 rs2 aq rl => encodeAmo 0b11100#5 aq rl rs2 rs1 rd
  | .fence rd rs1 succ pred fm => encodeFence fm pred succ rs1 0b000#3 rd
  | .fenceI rd rs1 imm => encodeI imm rs1 0b001#3 rd 0b0001111#7
  | .ecall => 0x00000073#32
  | .ebreak => 0x00100073#32
  | .mret => 0x30200073#32
  | .wfi => 0x10500073#32
  | .csrrw rd rs1 csr => encodeI csr rs1 0b001#3 rd 0b1110011#7
  | .csrrs rd rs1 csr => encodeI csr rs1 0b010#3 rd 0b1110011#7
  | .csrrc rd rs1 csr => encodeI csr rs1 0b011#3 rd 0b1110011#7
  | .csrrwi rd uimm csr => encodeI csr uimm 0b101#3 rd 0b1110011#7
  | .csrrsi rd uimm csr => encodeI csr uimm 0b110#3 rd 0b1110011#7
  | .csrrci rd uimm csr => encodeI csr uimm 0b111#3 rd 0b1110011#7

end Sys2Proof
end

