-- ==== Sys2Proof/Machine/System.lean ====
section
/-! DEFINITION. The MISC-MEM and SYSTEM instructions: fences, environment call, breakpoint, trap return, wait, and the six CSR
instructions (R650 to R676). -/

namespace Sys2Proof.Machine

/-- FENCE: no effect, `pc + 4`, for every value of its fields (R650, R322). -/
def execFence (_rd _rs1 : Reg) (_succ _pred _fm : BitVec 4) (s : State) : Result := .next s.advance

/-- FENCE.I: no effect, `pc + 4` (R651). -/
def execFenceI (_rd _rs1 : Reg) (_imm : BitVec 12) (s : State) : Result := .next s.advance

/-- ECALL: the environment-call exception of the current mode (R660). -/
def execEcall (s : State) : Result :=
  match s.priv with
  | .user => raise .envCallFromU s
  | .machine => raise .envCallFromM s

/-- EBREAK: the breakpoint exception with the pc as trap value (R661). -/
def execEbreak (s : State) : Result := raise (.breakpoint s.pc) s

/-- MRET: the return from a trap in M mode; illegal in U mode, with the word as trap value (R662). -/
def execMret (s : State) : Result :=
  match s.priv with
  | .user => raise (.illegalInstruction (encode .mret)) s
  | .machine => .next s.trapReturn

/-- WFI: it retires first; with nothing pending and enabled the hart waits and the batch ends with `idle`, otherwise it is a
no-op (R663). -/
def execWfi (s : State) : Result :=
  if s.wakes then .next s.advance else .next ({ s.advance with wfi := true }.endBatch .idle)

/-- A CSR instruction (R670): illegal if the access checks fail, with the instruction's word as trap value; otherwise
the CSR is read if `reads`, written with `new(old)` if `writes`, and `x[rd]` takes the old value. -/
def csrAccess (inst : Word) (n : CsrNum) (rd : Reg) (reads writes : Bool) (new : Word → Word) (s : State) : Result :=
  if csrLegal s.priv n writes then
    let (old, s1) := if reads then csrRead n s else (0, s)
    .next ((if writes then csrWrite n (new old) s1 else s1).retire rd old)
  else raise (.illegalInstruction inst) s

/-- CSRRW: reads only if `rd` is not x0, always writes `x[rs1]` (R671). -/
def execCsrrw (rd rs1 : Reg) (csr : CsrNum) (s : State) : Result :=
  csrAccess (encode (.csrrw rd rs1 csr)) csr rd (rd != 0) true (fun _ => s.x rs1) s

/-- CSRRS: always reads, writes `old | x[rs1]` only if the rs1 field is not 0 (R672). -/
def execCsrrs (rd rs1 : Reg) (csr : CsrNum) (s : State) : Result :=
  csrAccess (encode (.csrrs rd rs1 csr)) csr rd true (rs1 != 0) (fun old => old ||| s.x rs1) s

/-- CSRRC: always reads, writes `old & ~x[rs1]` only if the rs1 field is not 0 (R673). -/
def execCsrrc (rd rs1 : Reg) (csr : CsrNum) (s : State) : Result :=
  csrAccess (encode (.csrrc rd rs1 csr)) csr rd true (rs1 != 0) (fun old => old &&& ~~~ s.x rs1) s

/-- CSRRWI: reads only if `rd` is not x0, always writes the uimm (R674). -/
def execCsrrwi (rd : Reg) (uimm : BitVec 5) (csr : CsrNum) (s : State) : Result :=
  csrAccess (encode (.csrrwi rd uimm csr)) csr rd (rd != 0) true (fun _ => unsigned5 uimm) s

/-- CSRRSI: always reads, writes `old | uimm` only if the uimm is not 0 (R675). -/
def execCsrrsi (rd : Reg) (uimm : BitVec 5) (csr : CsrNum) (s : State) : Result :=
  csrAccess (encode (.csrrsi rd uimm csr)) csr rd true (uimm != 0) (fun old => old ||| unsigned5 uimm) s

/-- CSRRCI: always reads, writes `old & ~uimm` only if the uimm is not 0 (R676). -/
def execCsrrci (rd : Reg) (uimm : BitVec 5) (csr : CsrNum) (s : State) : Result :=
  csrAccess (encode (.csrrci rd uimm csr)) csr rd true (uimm != 0) (fun old => old &&& ~~~ unsigned5 uimm) s

end Sys2Proof.Machine
end

