-- ==== Sys2Proof/Machine/Run.lean ====
section
/-! DEFINITION. Running the instruction at the pc: fetch, decode, and its meaning. -/

namespace Sys2Proof.Machine

/-- The instruction at `pc`, once it has begun: fetch, decode, then its meaning; a failing fetch or decode raises before any
rule of an instruction runs (R701). -/
def runInstr (s : State) : Result :=
  match s.fetch with
  | .error e => raise e s
  | .ok w =>
    match decode w with
    | .ok i => exec i s
    | .error _ => raise (.illegalInstruction w) s

end Sys2Proof.Machine
end

