-- ==== Sys2Proof/Machine/Step.lean ====
section
/-! DEFINITION. One step of the machine: one instruction of a running batch call, the end of its budget, or one turn of the
host between two calls (log entry 3). -/

namespace Sys2Proof.Machine

/-- One step (R760). -/
def step (s : State) : Host.Outcome State Fault Refusal :=
  match s.phase with
  | .running (left + 1) => runInstr (s.beginInstr left)
  | .running 0 => .next (s.endBatch .continues)
  | .ready none => .next (hostFirstCall s)
  | .ready (some .continues) => .next (hostCall s)
  | .ready (some .idle) => .next (hostCall s)
  | .ready (some .restart) => .next (hostRestart s)
  | .rebooted => .next (hostCall s)
  | .ready (some (.fatal _ _)) => .fault .runEnded
  | .ready (some (.poweroff _)) => .fault .runEnded
  | .stopped => .fault .runEnded

/-- `s` with the instruction whose bits are `w` where the next fetch reads, and a batch call running that may begin it, so that
the very next step runs it (log entry 7). -/
def State.withFetchWord (s : State) (nbits w : Nat) : State :=
  { s.placeWord (tableWord nbits w) with phase := .running 1 }

end Sys2Proof.Machine
end

