-- ==== Sys2Proof/Safety.lean ====
section
/-! DEFINITION. The terms of the claims: what an instruction names, what a legal state is (the invariant of the machine), and what a
run is. -/

namespace Sys2Proof

/-- Whether an instruction reads or changes the reservation (R113). -/
def Instr.touchesReservation : Instr → Bool
  | .lrW _ _ _ _ => true
  | .scW _ _ _ _ _ => true
  | _ => false

/-- The destination register of an instruction, if it names one. -/
def Instr.destination : Instr → Option Reg
  | .lui rd _ | .auipc rd _ | .jal rd _ => some rd
  | .addi rd _ _ | .slti rd _ _ | .sltiu rd _ _ | .xori rd _ _ | .ori rd _ _ | .andi rd _ _ => some rd
  | .slli rd _ _ | .srli rd _ _ | .srai rd _ _ => some rd
  | .add rd _ _ | .sub rd _ _ | .sll rd _ _ | .slt rd _ _ | .sltu rd _ _ | .xor rd _ _ | .srl rd _ _ | .sra rd _ _
  | .or rd _ _ | .and rd _ _ => some rd
  | .jalr rd _ _ => some rd
  | .beq _ _ _ | .bne _ _ _ | .blt _ _ _ | .bge _ _ _ | .bltu _ _ _ | .bgeu _ _ _ => none
  | .lb rd _ _ | .lh rd _ _ | .lw rd _ _ | .lbu rd _ _ | .lhu rd _ _ => some rd
  | .sb _ _ _ | .sh _ _ _ | .sw _ _ _ => none
  | .mul rd _ _ | .mulh rd _ _ | .mulhsu rd _ _ | .mulhu rd _ _ | .div rd _ _ | .divu rd _ _ | .rem rd _ _
  | .remu rd _ _ => some rd
  | .lrW rd _ _ _ => some rd
  | .scW rd _ _ _ _ | .amoswapW rd _ _ _ _ | .amoaddW rd _ _ _ _ | .amoxorW rd _ _ _ _ | .amoandW rd _ _ _ _
  | .amoorW rd _ _ _ _ | .amominW rd _ _ _ _ | .amomaxW rd _ _ _ _ | .amominuW rd _ _ _ _ | .amomaxuW rd _ _ _ _ => some rd
  | .fence _ _ _ _ _ | .fenceI _ _ _ | .ecall | .ebreak | .mret | .wfi => none
  | .csrrw rd _ _ | .csrrs rd _ _ | .csrrc rd _ _ | .csrrwi rd _ _ | .csrrsi rd _ _ | .csrrci rd _ _ => some rd

end Sys2Proof

namespace Sys2Proof.Machine

/-- Every listed byte of memory lies in RAM or in the MMIO window: no other address exists (R201). -/
abbrev State.MemoryInRegions (s : State) : Prop :=
  ∀ cell ∈ s.mem, (s.cfg.ramBase.toNat ≤ cell.1 ∧ cell.1 < s.cfg.ramEnd) ∨
    (s.cfg.mmioBase.toNat ≤ cell.1 ∧ cell.1 < s.cfg.mmioEnd)

/-- RAM, the MMIO backing bytes and the presentation buffer are in canonical form and inside their bounds (R150, R151, R153). -/
abbrev State.MemoryLegal (s : State) : Prop :=
  s.mem.wf = true ∧ s.MemoryInRegions ∧ s.present.wf = true ∧ ∀ cell ∈ s.present, cell.1 < s.cfg.fbBytes

/-- Word aligned: bits 1:0 are 0 (R103, R124, R126). -/
abbrev WordAligned (a : Word) : Prop := a.extractLsb' 0 2 = 0b00#2

/-- The pc, the trap vector and the saved pc are word aligned (R103, R124, R126). -/
abbrev State.PcLegal (s : State) : Prop := WordAligned s.pc ∧ WordAligned s.mtvec ∧ WordAligned s.mepc

/-- A waiting hart is never inside a running batch: the last call returned `idle`, or the host stopped (R109, R741). -/
abbrev State.WaitLegal (s : State) : Prop :=
  s.wfi = true → s.phase = .ready (some .idle) ∨ s.phase = .stopped

/-- The launch parameters are legal: R13, and an image that fits in RAM (R802). -/
abbrev State.LaunchLegal (s : State) : Prop := s.cfg.Valid ∧ s.firmware.length ≤ s.cfg.ramSize.toNat

/-- A `fatal` result is given only in strict mode (R765). -/
abbrev State.FatalLegal (s : State) : Prop :=
  ∀ cause tval, s.phase = .ready (some (.fatal cause tval)) → s.cfg.strictTraps = true

/-- The invariant of the machine. -/
structure State.Inv (s : State) : Prop where
  launch : s.LaunchLegal
  memory : s.MemoryLegal
  pcs    : s.PcLegal
  zero   : s.regs[0] = 0
  wait   : s.WaitLegal
  fatal  : s.FatalLegal

/-- One step of the machine goes on from `s` to `t`. -/
abbrev StepsTo (s t : State) : Prop := step s = .next t

/-- `k` steps go from `s` to `t`. -/
def StepsIn : Nat → State → State → Prop
  | 0, s, t => t = s
  | k + 1, s, t => ∃ u, StepsTo s u ∧ StepsIn k u t

/-- The step from `s` begins the instruction `i`. -/
def Begins (s : State) (i : Instr) : Prop := ∃ n w, s.phase = .running (n + 1) ∧ s.fetch = .ok w ∧ decode w = .ok i

/-- `t` is reached from `s` by steps none of which begins an LR.W or an SC.W or performs a reset. -/
inductive ReachesKeepingReservation (s : State) : State → Prop
  | refl : ReachesKeepingReservation s s
  | tail {t u : State} : ReachesKeepingReservation s t → StepsTo t u →
      (∀ i, Begins t i → i.touchesReservation = false) → t.phase ≠ .ready (some .restart) → ReachesKeepingReservation s u

end Sys2Proof.Machine
end

