-- ==== Sys2Proof/Certificates/Slice0/Obligations.lean ====
section
/-! DEFINITION. The statements for the provers. Each docstring names the rule of the spec that the statement formalises. First the
words they are written in: what a completed instruction leaves, what a trap leaves, which accesses reach plain bytes. -/

namespace Sys2Proof.Claims

open Sys2Proof.Machine

/-! ### Completion and frame -/

/-- `x[rd] <- v` happened between `s` and `t`: `rd` reads `v`, every other register reads as before, x0 reads zero, and with
`rd` = x0 nothing is written at all. -/
def RegisterWritten (s t : State) (rd : Reg) (v : Word) : Prop :=
  (∀ r : Reg, t.x r = if r = 0 then 0 else if r = rd then v else s.x r) ∧ (rd = 0 → t.regs = s.regs)

/-- Nothing but the general registers and the pc differs: no CSR, no mode, no device, no reservation, no counter, no host
field, and every byte of memory reads as before. -/
def SameBesidesRegsPc (s t : State) : Prop :=
  t = { s with regs := t.regs, pc := t.pc } ∧ ∀ a : Nat, Memory.read t.mem a = Memory.read s.mem a

/-- The instruction completes with `x[rd] <- v`, the next pc `next`, and no other effect. -/
def CompletesTo (i : Instr) (s : State) (rd : Reg) (v next : Word) : Prop :=
  ∃ t, exec i s = .next t ∧ RegisterWritten s t rd v ∧ t.pc = next ∧ SameBesidesRegsPc s t

/-- The instruction completes with `x[rd] <- v` and `pc + 4`, and no other effect. -/
def Retires (i : Instr) (s : State) (rd : Reg) (v : Word) : Prop := CompletesTo i s rd v (s.pc + 4)

/-- The instruction completes with the next pc `next`, and no other effect. -/
def OnlyMovesPc (i : Instr) (s : State) (next : Word) : Prop := exec i s = .next { s with pc := next }

/-! ### Traps -/

/-- The steps of R720 with the saved pc `s.pc`, the end of the batch (R722), and no other effect: no general register, no
memory, no other field. -/
def TrapEntered (s t : State) (cause tval : Word) : Prop :=
  t.mepc = s.pc &&& 0xFFFFFFFC ∧ t.mcause = cause ∧ t.mtval = tval ∧ t.mstatus.mpie = s.mstatus.mie ∧
    t.mstatus.mie = false ∧ t.mstatus.mpp = s.priv ∧ t.priv = .machine ∧ t.pc = s.mtvec ∧
    t.phase = .ready (some .continues) ∧
    t = { s with
      mepc := t.mepc, mcause := t.mcause, mtval := t.mtval, mstatus := t.mstatus, priv := t.priv, pc := t.pc
      phase := t.phase }

/-- What an exception leaves: the trap entered, or in strict mode the result `fatal` and nothing else (R765). -/
def TrapTaken (s t : State) (cause tval : Word) : Prop :=
  if s.cfg.strictTraps then t = { s with phase := .ready (some (.fatal cause tval)) } else TrapEntered s t cause tval

/-- The instruction raises the exception with this cause and trap value, and has no effect of its own (R19). -/
def Raises (i : Instr) (s : State) (cause tval : Word) : Prop := ∃ t, exec i s = .next t ∧ TrapTaken s t cause tval

/-! ### Encodings -/

/-- A word spells the row (mask, match) of R311 exactly when it decodes to `mk` of that word. -/
def SpelledBy (value mask : Word) (mk : Word → Instr) : Prop :=
  ∀ w : Word, w &&& mask = value ↔ decode w = .ok (mk w)

/-- `Illegal` (R320). -/
def Illegal (w : Word) : Prop := ∃ e, decode w = .error e

/-! ### Addresses -/

/-- The address lies in RAM (R201). -/
def InRam (c : Config) (a : Word) : Prop := c.ramBase.toNat ≤ a.toNat ∧ a.toNat < c.ramBase.toNat + c.ramSize.toNat

/-- The address lies in the MMIO window and not in RAM (R201). -/
def InMmio (c : Config) (a : Word) : Prop :=
  ¬ InRam c a ∧ c.mmioBase.toNat ≤ a.toNat ∧ a.toNat < c.mmioBase.toNat + c.mmioSize.toNat

/-- The address lies in neither region (R201). -/
def Unmapped (c : Config) (a : Word) : Prop := ¬ InRam c a ∧ ¬ InMmio c a

/-- `a mod n = 0` (R206). -/
def Aligned (a : Word) (w : Width) : Prop := a.toNat % w.bytes = 0

/-- The addresses whose loads the dispatcher intercepts (R240). -/
def interceptedLoads (c : Config) : List Word :=
  [c.mmioBase + c.uartDataOff, c.mmioBase + c.uartLsrOff, c.mmioBase + c.clintCmpLoOff, c.mmioBase + c.clintCmpHiOff,
   c.mmioBase + c.clintTimeLoOff, c.mmioBase + c.clintTimeHiOff, c.mmioBase + c.fbVblankOff]

/-- The addresses whose stores the dispatcher intercepts (R240). -/
def interceptedStores (c : Config) : List Word :=
  [c.mmioBase + c.uartDataOff, c.mmioBase + c.clintCmpLoOff, c.mmioBase + c.clintCmpHiOff, c.mmioBase + c.fbSwapOff,
   c.mmioBase + c.sysconOff]

/-- A load from `a` reaches plain bytes: RAM, or the backing bytes of the MMIO window (R240). -/
def LoadReachesBytes (c : Config) (a : Word) : Prop := InRam c a ∨ (InMmio c a ∧ a ∉ interceptedLoads c)

/-- A store to `a` reaches plain bytes: RAM, or the backing bytes of the MMIO window (R240). -/
def StoreReachesBytes (c : Config) (a : Word) : Prop := InRam c a ∨ (InMmio c a ∧ a ∉ interceptedStores c)

/-! ### Bytes -/

/-- The little-endian value of the bytes from `a` on, zero-extended (R204, R231, R232). -/
def bytesValue (m : Memory) (a : Nat) : Width → Word
  | .byte => (Memory.read m a).setWidth 32
  | .half => (Memory.read m (a + 1) ++ Memory.read m a).setWidth 32
  | .word => Memory.read m (a + 3) ++ Memory.read m (a + 2) ++ Memory.read m (a + 1) ++ Memory.read m a

/-- The low bytes of `v` stand at `a` in `t`, byte `a + k` holding bits 8k+7 to 8k, and every other byte reads as in `s`
(R204, R235, R236). -/
def BytesStored (s t : State) (a : Word) (w : Width) (v : Word) : Prop :=
  (∀ k < w.bytes, Memory.read t.mem (a.toNat + k) = v.extractLsb' (8 * k) 8) ∧
    ∀ b : Nat, (b < a.toNat ∨ a.toNat + w.bytes ≤ b) → Memory.read t.mem b = Memory.read s.mem b

/-- The five loads. -/
inductive LoadForm
  | lb
  | lh
  | lw
  | lbu
  | lhu
  deriving DecidableEq, Repr

/-- The instruction of a load. -/
def LoadForm.instr : LoadForm → Reg → Reg → BitVec 12 → Instr
  | .lb => .lb
  | .lh => .lh
  | .lw => .lw
  | .lbu => .lbu
  | .lhu => .lhu

/-- The access width of a load (R205). -/
def LoadForm.width : LoadForm → Width
  | .lb => .byte
  | .lh => .half
  | .lw => .word
  | .lbu => .byte
  | .lhu => .half

/-- What a load writes to `rd`, of the value transferred (R501 to R505). -/
def LoadForm.extend : LoadForm → Word → Word
  | .lb, v => (v.setWidth 8).signExtend 32
  | .lh, v => (v.setWidth 16).signExtend 32
  | .lw, v => v
  | .lbu, v => (v.setWidth 8).setWidth 32
  | .lhu, v => (v.setWidth 16).setWidth 32

/-- The three stores. -/
inductive StoreForm
  | sb
  | sh
  | sw
  deriving DecidableEq, Repr

/-- The instruction of a store. -/
def StoreForm.instr : StoreForm → Reg → Reg → BitVec 12 → Instr
  | .sb => .sb
  | .sh => .sh
  | .sw => .sw

/-- The access width of a store (R205). -/
def StoreForm.width : StoreForm → Width
  | .sb => .byte
  | .sh => .half
  | .sw => .word

/-- `x[rs1] + imm` modulo 2^32 (R500). -/
def effective (s : State) (rs1 : Reg) (imm : BitVec 12) : Word := s.x rs1 + imm.signExtend 32

/-! ### The keyboard (R154, R773) -/

/-- The bytes that arrive before the next poll: the host's input, listed in State or a free value (log entry 5). -/
def arrivals (s : State) : List Byte :=
  match s.keyFeed with
  | bytes :: _ => bytes
  | [] => Config.keyArrivals s.draws

/-- The queue as the next poll sees it. -/
def queueAtPoll (s : State) : List Byte := s.kbd ++ arrivals s

/-- Between `s` and `t` the keyboard was polled once and the queue is now `q`; nothing else differs but the general registers
and the pc. The two fields of the host's input move on. -/
def PolledTo (s t : State) (q : List Byte) : Prop :=
  t.kbd = q ∧ t.keyFeed = s.keyFeed.tail ∧ t.draws = (if s.keyFeed = [] then s.draws + 1 else s.draws) ∧
    t = { s with regs := t.regs, pc := t.pc, kbd := t.kbd, keyFeed := t.keyFeed, draws := t.draws }

/-! ### CSR instructions (R140, R670) -/

/-- The two access checks of R140. -/
def CsrAllowed (p : Priv) (n : CsrNum) (writes : Bool) : Prop :=
  (p = .machine ∨ n.extractLsb' 8 2 = 0b00#2) ∧ ¬ (n.extractLsb' 10 2 = 0b11#2 ∧ writes = true)

/-- A CSR instruction that passes the checks: `old` is read if `reads`, `new old` is written if `writes`, `x[rd] <- old`. -/
def CsrDone (i : Instr) (s : State) (n : CsrNum) (rd : Reg) (reads writes : Bool) (new : Word → Word) : Prop :=
  ∃ t, exec i s = .next t ∧
    ∃ old s1, (old, s1) = (if reads then csrRead n s else (0, s)) ∧
      RegisterWritten s t rd old ∧ t.pc = s.pc + 4 ∧
      t = { (if writes then csrWrite n (new old) s1 else s1) with regs := t.regs, pc := t.pc }

/-- One of the six forms as a whole: done when allowed, illegal with the instruction's word as trap value when not. -/
def CsrForm (i : Instr) (s : State) (n : CsrNum) (rd : Reg) (reads writes : Bool) (new : Word → Word) : Prop :=
  (CsrAllowed s.priv n writes → CsrDone i s n rd reads writes new) ∧
    (¬ CsrAllowed s.priv n writes → Raises i s 2 (encode i))

/-- `csrr rd, n` in a state that allows it gives `v` and has no side effect. -/
def CsrReads (n : CsrNum) (s : State) (v : Word) : Prop := ∀ rd : Reg, Retires (.csrrs rd 0 n) s rd v

/-- `csrw n, rs1` completes and leaves `t` but for the pc. -/
def CsrWrites (n : CsrNum) (s : State) (rs1 : Reg) (t : State) : Prop :=
  exec (.csrrw 0 rs1 n) s = .next { t with pc := s.pc + 4 }

end Sys2Proof.Claims

section Statements

open Sys2Proof Sys2Proof.Machine Sys2Proof.Claims

/-! ### Decoding -/

/-- Every well-formed instruction, with every operand at every value, decodes from its own word (R301, R302, R303). -/
def Obligations.DecodeEncodeRoundTrip : Prop :=
  ∀ i : Instr, i.wellFormed = true → decode (encode i) = .ok i

/-- Each word that decodes has one meaning: the instruction is well formed and its word is that word again. -/
def Obligations.DecodedWordEncodesBack : Prop :=
  ∀ (w : Word) (i : Instr), decode w = .ok i → i.wellFormed = true ∧ encode i = w

/-- R311: 68 rows; a word spells an instruction exactly when it fits the mask and match of its row; no word fits two. -/
def Obligations.DecodeFollowsOpcodeTable : Prop :=
  opcodeRows.length = 68 ∧
    (∀ (w : Word) (r : Row), r ∈ opcodeRows → (r.Spells w ↔ ∃ i, decode w = .ok i ∧ i.mnemonic = r.mnemonic)) ∧
    (∀ (w : Word) (r r' : Row), r ∈ opcodeRows → r' ∈ opcodeRows → r.Spells w → r'.Spells w → r = r') ∧
    ∀ w : Word, (∀ r ∈ opcodeRows, ¬ r.Spells w) → Illegal w

/-- R321, item by item; the first clause is its first sentence. -/
def Obligations.StrictDecodingRefusesNearWords : Prop :=
  ∀ w : Word,
    ((∀ r ∈ opcodeRows, ¬ r.Spells w) → Illegal w) ∧
    (opcodeOf w = 0b0110011#7 → funct7Of w ∉ [0b0000000#7, 0b0100000#7, 0b0000001#7] → Illegal w) ∧
    (opcodeOf w = 0b0110011#7 → funct7Of w = 0b0100000#7 → funct3Of w ∉ [0b000#3, 0b101#3] → Illegal w) ∧
    (opcodeOf w = 0b0010011#7 → funct3Of w = 0b001#3 → funct7Of w ≠ 0b0000000#7 → Illegal w) ∧
    (opcodeOf w = 0b0010011#7 → funct3Of w = 0b101#3 → funct7Of w ∉ [0b0000000#7, 0b0100000#7] → Illegal w) ∧
    (opcodeOf w = 0b0000011#7 → funct3Of w ∈ [0b011#3, 0b110#3, 0b111#3] → Illegal w) ∧
    (opcodeOf w = 0b0100011#7 → 0b011 ≤ (funct3Of w).toNat → Illegal w) ∧
    (opcodeOf w = 0b1100011#7 → funct3Of w ∈ [0b010#3, 0b011#3] → Illegal w) ∧
    (opcodeOf w = 0b1100111#7 → funct3Of w ≠ 0b000#3 → Illegal w) ∧
    (opcodeOf w = 0b0101111#7 → funct3Of w ≠ 0b010#3 → Illegal w) ∧
    (opcodeOf w = 0b0101111#7 →
      funct5Of w ∉ [0b00010#5, 0b00011#5, 0b00001#5, 0b00000#5, 0b00100#5, 0b01100#5, 0b01000#5, 0b10000#5, 0b10100#5,
        0b11000#5, 0b11100#5] → Illegal w) ∧
    (opcodeOf w = 0b0101111#7 → funct5Of w = 0b00010#5 → rs2Of w ≠ 0b00000#5 → Illegal w) ∧
    (opcodeOf w = 0b0001111#7 → 0b010 ≤ (funct3Of w).toNat → Illegal w) ∧
    (opcodeOf w = 0b1110011#7 → funct3Of w = 0b000#3 → w ∉ [0x00000073#32, 0x00100073#32, 0x30200073#32, 0x10500073#32] →
      Illegal w) ∧
    (opcodeOf w = 0b1110011#7 → funct3Of w = 0b100#3 → Illegal w)

/-- Words written out from the formats of R302 and the examples of the instruction rules decode to what they stand for. -/
def Obligations.SampleWordsDecode : Prop :=
  decode 0b00010010001101000101_00011_0110111#32 = .ok (.lui 3 0x12345) ∧
    decode 0b111111111010_00001_000_00011_0010011#32 = .ok (.addi 3 1 0xFFA) ∧
    decode 0b0100000_00100_00001_101_00011_0010011#32 = .ok (.srai 3 1 4) ∧
    decode 0b0100000_00010_00001_000_00011_0110011#32 = .ok (.sub 3 1 2) ∧
    decode 0b1_1111111110_1_11111111_00001_1101111#32 = .ok (.jal 1 (BitVec.ofInt 21 (-4))) ∧
    decode 0b1_111111_00010_00001_100_1100_1_1100011#32 = .ok (.blt 1 2 (BitVec.ofInt 13 (-8))) ∧
    decode 0b111111111100_00001_010_00011_0000011#32 = .ok (.lw 3 1 0xFFC) ∧
    decode 0b0000000_00010_00001_010_00000_0100011#32 = .ok (.sw 1 2 0) ∧
    decode 0b0000001_00010_00001_100_00011_0110011#32 = .ok (.div 3 1 2) ∧
    decode 0b00011_0_0_00010_00001_010_00100_0101111#32 = .ok (.scW 4 1 2 false false) ∧
    decode 0b00000_1_1_00010_00001_010_00011_0101111#32 = .ok (.amoaddW 3 1 2 true true) ∧
    decode 0b0000_1111_1111_00000_000_00000_0001111#32 = .ok (.fence 0 0 0xF 0xF 0) ∧
    decode 0b0011000_00010_00000_000_00000_1110011#32 = .ok .mret ∧
    decode 0b001101000000_00001_001_00011_1110011#32 = .ok (.csrrw 3 1 0x340) ∧
    decode 0b001100000000_01000_111_00011_1110011#32 = .ok (.csrrci 3 8 0x300)

/-! ### One step -/

/-- Where the four bytes at the pc lie in RAM and are the word of an instruction, a step with budget left is that
instruction's meaning, after `cycle64` has counted it and one unit of the budget is used (R701, R760, R761). -/
def Obligations.StepRunsDecodedInstruction : Prop :=
  ∀ (s : State) (left : Nat) (i : Instr),
    s.phase = .running (left + 1) → Aligned s.pc .word → InRam s.cfg s.pc →
    decode (bytesValue s.mem s.pc.toNat .word) = .ok i →
    step s = exec i { s with cycle64 := s.cycle64 + 1, phase := .running left }

/-- R701: a fetch whose four bytes are not all in RAM raises InstrAccessFault with the pc as trap value; a fetched word that
matches no row raises IllegalInstruction with the word as trap value; otherwise the instruction's own rule runs. -/
def Obligations.FetchAndDecodeRaiseFirst : Prop :=
  ∀ (s : State) (left : Nat), s.cfg.Valid → s.phase = .running (left + 1) → Aligned s.pc .word →
    let begun := { s with cycle64 := s.cycle64 + 1, phase := .running left }
    ((∃ k < 4, ¬ InRam s.cfg (s.pc + BitVec.ofNat 32 k)) → ∃ t, step s = .next t ∧ TrapTaken begun t 1 s.pc) ∧
      ((∀ k < 4, InRam s.cfg (s.pc + BitVec.ofNat 32 k)) →
        let w := bytesValue s.mem s.pc.toNat .word
        (Illegal w → ∃ t, step s = .next t ∧ TrapTaken begun t 2 w) ∧
          ∀ i, decode w = .ok i → step s = exec i begun)

/-- R761: `cycle64` grows by one in a step that begins an instruction, whatever becomes of it; no other step but a reset
changes it; a CSR read sees it after its own increment; the power-off count includes the store. -/
def Obligations.CycleCounterCountsInstructionsBegun : Prop :=
  (∀ (s t : State) (left : Nat), s.phase = .running (left + 1) → step s = .next t → t.cycle64 = s.cycle64 + 1) ∧
    (∀ s t : State, (∀ left, s.phase ≠ .running (left + 1)) → s.phase ≠ .ready (some .restart) → step s = .next t →
      t.cycle64 = s.cycle64) ∧
    (∀ (s t : State) (rd : Reg), Begins s (.csrrs rd 0 0xC00) → rd ≠ 0 → step s = .next t →
      t.x rd = (s.cycle64 + 1).extractLsb' 0 32) ∧
    (∀ (s t : State) (rd : Reg), Begins s (.csrrs rd 0 0xC80) → rd ≠ 0 → step s = .next t →
      t.x rd = (s.cycle64 + 1).extractLsb' 32 32) ∧
    ∀ (s t : State) (left : Nat) (count : DWord), s.phase = .running (left + 1) → step s = .next t →
      t.phase = .ready (some (.poweroff count)) → count = s.cycle64 + 1

/-- Every instruction, in every state, either completes or raises exactly one exception of R710 and performs none of its own
effects (R19). Completed, it leaves the batch running or ends it with the result of WFI or of the SYSCON store (R760). -/
def Obligations.InstructionCompletesOrTraps : Prop :=
  ∀ (i : Instr) (s : State), ∃ t, exec i s = .next t ∧
    ((∃ cause ∈ [(0 : Word), 1, 2, 3, 4, 5, 6, 7, 8, 11], ∃ tval, TrapTaken s t cause tval) ∨
      (t.phase = s.phase ∨ t.phase = .ready (some .idle) ∨ t.phase = .ready (some .restart) ∨
        t.phase = .ready (some (.poweroff s.cycle64))))

/-! ### Reset, launch, the end of a run, invariants -/

/-- The values of R170 and R801 after a cold start with any parameters and image, and a SYSCON restart gives the same state but
for the host-owned keyboard, console and presentation buffer. What R170 itself derives: MTIP is 1 at the first batch start. The
model's choices: `phase` before the first call and after a reset (log entries 3 and 10), the reset a step of its own that keeps
the host's pending call (log entry 9), and the fields that list the host's doings kept (log entry 6). -/
def Obligations.ResetGivesTheListedValues : Prop :=
  (∀ (c : Config) (image : List Byte),
    let s := coldStart c image
    (∀ r, s.x r = 0) ∧ s.pc = c.ramBase ∧ s.priv = .machine ∧ s.wfi = false ∧ s.resvValid = false ∧ s.resvAddr = 0 ∧
      s.cycle64 = 0 ∧ s.mtime = 0 ∧ s.mtimecmp = 0 ∧ s.mstatus = { mie := false, mpie := false, mpp := .user } ∧
      s.mtie = false ∧ s.mtip = false ∧ s.mtvec = 0 ∧ s.mscratch = 0 ∧ s.mepc = 0 ∧ s.mcause = 0 ∧ s.mtval = 0 ∧
      s.vblank = false ∧ s.kbd = [] ∧ s.console = [] ∧ s.phase = .ready none ∧
      (∀ k : Nat, Memory.read s.present k = 0) ∧ s.mem.wf = true ∧
      (∀ k : Nat, Memory.read s.mem (c.ramBase.toNat + k) = image.getD k 0) ∧
      (∀ a : Nat, a < c.ramBase.toNat → Memory.read s.mem a = 0) ∧
      ∀ (elapsed : Word) (budget : Nat), (s.startBatch elapsed budget).mtip = true) ∧
    ∀ (s : State) (setVblank : Bool) (elapsed : Word) (budget : Nat),
      s.phase = .ready (some .restart) → s.nextTurn = .call setVblank elapsed budget →
      step s = .next { coldStart s.cfg s.firmware with
        kbd := s.kbd, console := s.console, present := s.present, turns := s.turns, keyFeed := s.keyFeed, draws := s.draws
        phase := .rebooted }

/-- A launch is refused exactly for a configuration outside R13, for one whose two SYSCON sentinels are equal, or for an image
larger than RAM; an empty image and one that fills RAM are accepted (R802, R803); a launched machine is the cold-start state and
meets the invariant. The model's choices: that a configuration outside R13 is refused, as R13 allows (log entry 16), and that
equal sentinels are refused (log entry 17). -/
def Obligations.LaunchAcceptsExactlyLegalParameters : Prop :=
  (∀ (c : Config) (image : List Byte) (s : State),
    launch c image = .ok s ↔ c.Valid ∧ image.length ≤ c.ramSize.toNat ∧ s = coldStart c image) ∧
    (∀ (c : Config) (image : List Byte), c.Valid → c.ramSize.toNat < image.length →
      launch c image = .error .firmwareTooLarge) ∧
    (∀ c : Config, c.Valid → ∃ s, launch c [] = .ok s) ∧
    ∀ (c : Config) (image : List Byte) (s : State), launch c image = .ok s → s.Inv

/-- The state right after reset meets the invariant. The second clause is the model's choice: `State.reset` is the cold start of
the test configuration (log entry 1) with the empty image (log entry 2). -/
def Obligations.InvariantHoldsAtReset : Prop := State.reset.Inv ∧ State.reset = coldStart Config.testConfig []

/-- Every step keeps the invariant: legal launch parameters; memory and the presentation buffer in canonical form and inside
their bounds; pc, mtvec and mepc word aligned; the x0 slot zero; a waiting hart outside every running batch; `fatal` only in
strict mode. -/
def Obligations.EveryStepKeepsInvariant : Prop :=
  ∀ s t : State, s.Inv → step s = .next t → t.Inv

/-- The parameters and the firmware image are constants of the machine (R12, R802). -/
def Obligations.LaunchParametersNeverChange : Prop :=
  ∀ s t : State, step s = .next t → t.cfg = s.cfg ∧ t.firmware = s.firmware

/-- The machine goes on from every state but those in which the run has ended: after `poweroff`, after `fatal`, after the
host stopped (R775). It never refuses. -/
def Obligations.RunEndsOnlyAsListed : Prop :=
  ∀ s : State,
    ((∃ t, step s = .next t) ↔
      s.phase ≠ .stopped ∧ (∀ c, s.phase ≠ .ready (some (.poweroff c))) ∧
        ∀ cause tval, s.phase ≠ .ready (some (.fatal cause tval))) ∧
    (¬ (∃ t, step s = .next t) → step s = .fault .runEnded)

/-! ### RV32I computation -/

/-- LUI and AUIPC (R400, R401). -/
def Obligations.UpperImmediateResults : Prop :=
  SpelledBy 0x00000037 0x0000007F (fun w => .lui (rdOf w) (w.extractLsb' 12 20)) ∧
    SpelledBy 0x00000017 0x0000007F (fun w => .auipc (rdOf w) (w.extractLsb' 12 20)) ∧
    ∀ (s : State) (rd : Reg) (imm : BitVec 20),
      Retires (.lui rd imm) s rd (imm ++ 0#12) ∧ Retires (.auipc rd imm) s rd (s.pc + (imm ++ 0#12))

/-- ADDI, SLTI, SLTIU, XORI, ORI, ANDI (R402 to R407). -/
def Obligations.ImmediateOperationResults : Prop :=
  SpelledBy 0x00000013 0x0000707F (fun w => .addi (rdOf w) (rs1Of w) (w.extractLsb' 20 12)) ∧
    SpelledBy 0x00002013 0x0000707F (fun w => .slti (rdOf w) (rs1Of w) (w.extractLsb' 20 12)) ∧
    SpelledBy 0x00003013 0x0000707F (fun w => .sltiu (rdOf w) (rs1Of w) (w.extractLsb' 20 12)) ∧
    SpelledBy 0x00004013 0x0000707F (fun w => .xori (rdOf w) (rs1Of w) (w.extractLsb' 20 12)) ∧
    SpelledBy 0x00006013 0x0000707F (fun w => .ori (rdOf w) (rs1Of w) (w.extractLsb' 20 12)) ∧
    SpelledBy 0x00007013 0x0000707F (fun w => .andi (rdOf w) (rs1Of w) (w.extractLsb' 20 12)) ∧
    ∀ (s : State) (rd rs1 : Reg) (imm : BitVec 12),
      let a := s.x rs1
      let b := imm.signExtend 32
      Retires (.addi rd rs1 imm) s rd (a + b) ∧
        Retires (.slti rd rs1 imm) s rd (if a.toInt < b.toInt then 1 else 0) ∧
        Retires (.sltiu rd rs1 imm) s rd (if a.toNat < b.toNat then 1 else 0) ∧
        Retires (.xori rd rs1 imm) s rd (a ^^^ b) ∧
        Retires (.ori rd rs1 imm) s rd (a ||| b) ∧
        Retires (.andi rd rs1 imm) s rd (a &&& b)

/-- SLLI, SRLI, SRAI (R408 to R410). -/
def Obligations.ImmediateShiftResults : Prop :=
  SpelledBy 0x00001013 0xFE00707F (fun w => .slli (rdOf w) (rs1Of w) (w.extractLsb' 20 5)) ∧
    SpelledBy 0x00005013 0xFE00707F (fun w => .srli (rdOf w) (rs1Of w) (w.extractLsb' 20 5)) ∧
    SpelledBy 0x40005013 0xFE00707F (fun w => .srai (rdOf w) (rs1Of w) (w.extractLsb' 20 5)) ∧
    ∀ (s : State) (rd rs1 : Reg) (shamt : BitVec 5),
      let a := s.x rs1
      Retires (.slli rd rs1 shamt) s rd (BitVec.ofNat 32 (a.toNat * 2 ^ shamt.toNat)) ∧
        Retires (.srli rd rs1 shamt) s rd (BitVec.ofNat 32 (a.toNat / 2 ^ shamt.toNat)) ∧
        Retires (.srai rd rs1 shamt) s rd (BitVec.ofInt 32 (a.toInt / 2 ^ shamt.toNat))

/-- ADD, SUB, SLT, SLTU, XOR, OR, AND (R411, R412, R414, R415, R416, R419, R420). -/
def Obligations.RegisterOperationResults : Prop :=
  SpelledBy 0x00000033 0xFE00707F (fun w => .add (rdOf w) (rs1Of w) (rs2Of w)) ∧
    SpelledBy 0x40000033 0xFE00707F (fun w => .sub (rdOf w) (rs1Of w) (rs2Of w)) ∧
    SpelledBy 0x00002033 0xFE00707F (fun w => .slt (rdOf w) (rs1Of w) (rs2Of w)) ∧
    SpelledBy 0x00003033 0xFE00707F (fun w => .sltu (rdOf w) (rs1Of w) (rs2Of w)) ∧
    SpelledBy 0x00004033 0xFE00707F (fun w => .xor (rdOf w) (rs1Of w) (rs2Of w)) ∧
    SpelledBy 0x00006033 0xFE00707F (fun w => .or (rdOf w) (rs1Of w) (rs2Of w)) ∧
    SpelledBy 0x00007033 0xFE00707F (fun w => .and (rdOf w) (rs1Of w) (rs2Of w)) ∧
    ∀ (s : State) (rd rs1 rs2 : Reg),
      let a := s.x rs1
      let b := s.x rs2
      Retires (.add rd rs1 rs2) s rd (a + b) ∧
        Retires (.sub rd rs1 rs2) s rd (a - b) ∧
        Retires (.slt rd rs1 rs2) s rd (if a.toInt < b.toInt then 1 else 0) ∧
        Retires (.sltu rd rs1 rs2) s rd (if a.toNat < b.toNat then 1 else 0) ∧
        Retires (.xor rd rs1 rs2) s rd (a ^^^ b) ∧
        Retires (.or rd rs1 rs2) s rd (a ||| b) ∧
        Retires (.and rd rs1 rs2) s rd (a &&& b)

/-- SLL, SRL, SRA: the amount is bits 4:0 of `x[rs2]`, its value modulo 32 (R413, R417, R418). -/
def Obligations.RegisterShiftResults : Prop :=
  SpelledBy 0x00001033 0xFE00707F (fun w => .sll (rdOf w) (rs1Of w) (rs2Of w)) ∧
    SpelledBy 0x00005033 0xFE00707F (fun w => .srl (rdOf w) (rs1Of w) (rs2Of w)) ∧
    SpelledBy 0x40005033 0xFE00707F (fun w => .sra (rdOf w) (rs1Of w) (rs2Of w)) ∧
    ∀ (s : State) (rd rs1 rs2 : Reg),
      let a := s.x rs1
      let sh := (s.x rs2).toNat % 32
      Retires (.sll rd rs1 rs2) s rd (BitVec.ofNat 32 (a.toNat * 2 ^ sh)) ∧
        Retires (.srl rd rs1 rs2) s rd (BitVec.ofNat 32 (a.toNat / 2 ^ sh)) ∧
        Retires (.sra rd rs1 rs2) s rd (BitVec.ofInt 32 (a.toInt / 2 ^ sh))

/-! ### RV32I control transfer -/

/-- JAL and JALR (R451, R452): the link and the target, or the misaligned-target exception before any write (R450). -/
def Obligations.JumpsLinkAndTransfer : Prop :=
  SpelledBy 0x0000006F 0x0000007F (fun w => .jal (rdOf w)
      (w.extractLsb' 31 1 ++ w.extractLsb' 12 8 ++ w.extractLsb' 20 1 ++ w.extractLsb' 21 10 ++ 0#1)) ∧
    SpelledBy 0x00000067 0x0000707F (fun w => .jalr (rdOf w) (rs1Of w) (w.extractLsb' 20 12)) ∧
    (∀ w : Word, opcodeOf w = 0b1100111#7 → funct3Of w ≠ 0b000#3 → Illegal w) ∧
    (∀ (s : State) (rd : Reg) (off : BitVec 21),
      let target := s.pc + off.signExtend 32
      (WordAligned target → CompletesTo (.jal rd off) s rd (s.pc + 4) target) ∧
        (¬ WordAligned target → Raises (.jal rd off) s 0 target)) ∧
    ∀ (s : State) (rd rs1 : Reg) (imm : BitVec 12),
      let target := (s.x rs1 + imm.signExtend 32) &&& 0xFFFFFFFE
      (WordAligned target → CompletesTo (.jalr rd rs1 imm) s rd (s.pc + 4) target) ∧
        (¬ WordAligned target → Raises (.jalr rd rs1 imm) s 0 target)

/-- The six branches (R453 to R458) in their common form (R460). -/
def Obligations.BranchesCompareAndTransfer : Prop :=
  let offset := fun w : Word =>
    w.extractLsb' 31 1 ++ w.extractLsb' 7 1 ++ w.extractLsb' 25 6 ++ w.extractLsb' 8 4 ++ 0#1
  SpelledBy 0x00000063 0x0000707F (fun w => .beq (rs1Of w) (rs2Of w) (offset w)) ∧
    SpelledBy 0x00001063 0x0000707F (fun w => .bne (rs1Of w) (rs2Of w) (offset w)) ∧
    SpelledBy 0x00004063 0x0000707F (fun w => .blt (rs1Of w) (rs2Of w) (offset w)) ∧
    SpelledBy 0x00005063 0x0000707F (fun w => .bge (rs1Of w) (rs2Of w) (offset w)) ∧
    SpelledBy 0x00006063 0x0000707F (fun w => .bltu (rs1Of w) (rs2Of w) (offset w)) ∧
    SpelledBy 0x00007063 0x0000707F (fun w => .bgeu (rs1Of w) (rs2Of w) (offset w)) ∧
    (∀ w : Word, opcodeOf w = 0b1100011#7 → funct3Of w ∈ [0b010#3, 0b011#3] → Illegal w) ∧
    ∀ (s : State) (rs1 rs2 : Reg) (off : BitVec 13),
      let a := s.x rs1
      let b := s.x rs2
      let target := s.pc + off.signExtend 32
      ∀ p ∈ [(Instr.beq rs1 rs2 off, decide (a = b)), (.bne rs1 rs2 off, decide (a ≠ b)),
          (.blt rs1 rs2 off, decide (a.toInt < b.toInt)), (.bge rs1 rs2 off, decide (b.toInt ≤ a.toInt)),
          (.bltu rs1 rs2 off, decide (a.toNat < b.toNat)), (.bgeu rs1 rs2 off, decide (b.toNat ≤ a.toNat))],
        (p.2 = false → OnlyMovesPc p.1 s (s.pc + 4)) ∧
          (p.2 = true → WordAligned target → OnlyMovesPc p.1 s target) ∧
          (p.2 = true → ¬ WordAligned target → Raises p.1 s 0 target)

/-! ### RV32I loads and stores -/

/-- LB, LH, LW, LBU, LHU (R501 to R505): the bytes in memory, or what the device gives; and the exceptions of R510 in their
order, with nothing changed. -/
def Obligations.LoadsReadMemoryOrDevice : Prop :=
  SpelledBy 0x00000003 0x0000707F (fun w => .lb (rdOf w) (rs1Of w) (w.extractLsb' 20 12)) ∧
    SpelledBy 0x00001003 0x0000707F (fun w => .lh (rdOf w) (rs1Of w) (w.extractLsb' 20 12)) ∧
    SpelledBy 0x00002003 0x0000707F (fun w => .lw (rdOf w) (rs1Of w) (w.extractLsb' 20 12)) ∧
    SpelledBy 0x00004003 0x0000707F (fun w => .lbu (rdOf w) (rs1Of w) (w.extractLsb' 20 12)) ∧
    SpelledBy 0x00005003 0x0000707F (fun w => .lhu (rdOf w) (rs1Of w) (w.extractLsb' 20 12)) ∧
    ∀ (f : LoadForm) (s : State) (rd rs1 : Reg) (imm : BitVec 12),
      let ea := effective s rs1 imm
      let i := f.instr rd rs1 imm
      (Aligned ea f.width → LoadReachesBytes s.cfg ea →
          Retires i s rd (f.extend (bytesValue s.mem ea.toNat f.width))) ∧
        (∀ p, Aligned ea f.width → InMmio s.cfg ea → loadPort s.cfg ea = some p →
          ∃ t, exec i s = .next t ∧ RegisterWritten s t rd (f.extend (deviceLoad p s).1) ∧ t.pc = s.pc + 4 ∧
            t = { (deviceLoad p s).2 with regs := t.regs, pc := t.pc }) ∧
        (¬ Aligned ea f.width → Raises i s 4 ea) ∧
        (Aligned ea f.width → Unmapped s.cfg ea → Raises i s 5 ea)

/-- The UART loads (R242, R243): data takes the first byte of the queue or gives 0; the status is 0x60 with bit 0 for a
waiting byte, and takes nothing. The model's choice (log entry 5, after R773): the bytes that arrive before the poll come from
`keyFeed` or are a free value, join the queue at the poll, and use up one entry or one draw. -/
def Obligations.UartLoadsPollTheKeyboard : Prop :=
  ∀ (f : LoadForm) (s : State) (rd rs1 : Reg) (imm : BitVec 12), s.cfg.Valid →
    let ea := effective s rs1 imm
    let i := f.instr rd rs1 imm
    Aligned ea f.width →
    (ea = s.cfg.mmioBase + s.cfg.uartDataOff →
      (∀ b rest, queueAtPoll s = b :: rest → ∃ t, exec i s = .next t ∧
        RegisterWritten s t rd (f.extend (b.setWidth 32)) ∧ t.pc = s.pc + 4 ∧ PolledTo s t rest) ∧
      (queueAtPoll s = [] → ∃ t, exec i s = .next t ∧
        RegisterWritten s t rd 0 ∧ t.pc = s.pc + 4 ∧ PolledTo s t [])) ∧
    (ea = s.cfg.mmioBase + s.cfg.uartLsrOff → ∃ t, exec i s = .next t ∧
      RegisterWritten s t rd (f.extend (if queueAtPoll s = [] then 0x60 else 0x61)) ∧ t.pc = s.pc + 4 ∧
      PolledTo s t (queueAtPoll s))

/-- The CLINT loads (R246, R248): the halves of `mtime` and of `mtimecmp`, with no side effect; `mtime` is that of the start of
the batch, for no step inside a batch changes it. -/
def Obligations.ClintLoadsGiveTimerHalves : Prop :=
  (∀ (s t : State) (left : Nat), s.phase = .running left → step s = .next t → t.mtime = s.mtime) ∧
  ∀ (f : LoadForm) (s : State) (rd rs1 : Reg) (imm : BitVec 12), s.cfg.Valid →
    let ea := effective s rs1 imm
    let i := f.instr rd rs1 imm
    Aligned ea f.width →
    (ea = s.cfg.mmioBase + s.cfg.clintTimeLoOff → Retires i s rd (f.extend (s.mtime.extractLsb' 0 32))) ∧
    (ea = s.cfg.mmioBase + s.cfg.clintTimeHiOff → Retires i s rd (f.extend (s.mtime.extractLsb' 32 32))) ∧
    (ea = s.cfg.mmioBase + s.cfg.clintCmpLoOff → Retires i s rd (f.extend (s.mtimecmp.extractLsb' 0 32))) ∧
    (ea = s.cfg.mmioBase + s.cfg.clintCmpHiOff → Retires i s rd (f.extend (s.mtimecmp.extractLsb' 32 32)))

/-- R250: a vblank load returns the flag and clears it; a store to the vblank address writes backing bytes and leaves the flag. -/
def Obligations.VblankLoadReturnsAndClears : Prop :=
  (∀ (f : LoadForm) (s : State) (rd rs1 : Reg) (imm : BitVec 12), s.cfg.Valid →
    effective s rs1 imm = s.cfg.mmioBase + s.cfg.fbVblankOff →
    ∃ t, exec (f.instr rd rs1 imm) s = .next t ∧ RegisterWritten s t rd (if s.vblank then 1 else 0) ∧ t.pc = s.pc + 4 ∧
      t.vblank = false ∧ t = { s with regs := t.regs, pc := t.pc, vblank := t.vblank }) ∧
  ∀ (f : StoreForm) (s : State) (rs1 rs2 : Reg) (imm : BitVec 12), s.cfg.Valid → s.mem.wf = true →
    effective s rs1 imm = s.cfg.mmioBase + s.cfg.fbVblankOff →
    ∃ t, exec (f.instr rs1 rs2 imm) s = .next t ∧ BytesStored s t (effective s rs1 imm) f.width (s.x rs2) ∧
      t = { s with pc := s.pc + 4, mem := t.mem }

/-- SB, SH, SW (R506 to R508): the low bytes of `x[rs2]` at the effective address, or the device's action with the full
register value; and the exceptions of R511 in their order, with nothing changed. -/
def Obligations.StoresWriteMemoryOrDevice : Prop :=
  let immS := fun w : Word => w.extractLsb' 25 7 ++ w.extractLsb' 7 5
  SpelledBy 0x00000023 0x0000707F (fun w => .sb (rs1Of w) (rs2Of w) (immS w)) ∧
    SpelledBy 0x00001023 0x0000707F (fun w => .sh (rs1Of w) (rs2Of w) (immS w)) ∧
    SpelledBy 0x00002023 0x0000707F (fun w => .sw (rs1Of w) (rs2Of w) (immS w)) ∧
    ∀ (f : StoreForm) (s : State) (rs1 rs2 : Reg) (imm : BitVec 12), s.mem.wf = true →
      let ea := effective s rs1 imm
      let i := f.instr rs1 rs2 imm
      (Aligned ea f.width → StoreReachesBytes s.cfg ea →
          ∃ t, exec i s = .next t ∧ BytesStored s t ea f.width (s.x rs2) ∧ t = { s with pc := s.pc + 4, mem := t.mem }) ∧
        (∀ p, Aligned ea f.width → InMmio s.cfg ea → storePort s.cfg ea = some p →
          exec i s = .next { deviceStore p f.width (s.x rs2) s with pc := s.pc + 4 }) ∧
        (¬ Aligned ea f.width → Raises i s 6 ea) ∧
        (Aligned ea f.width → Unmapped s.cfg ea → Raises i s 7 ea)

/-- The UART data store appends one byte to the console (R241); the CLINT compare stores replace one half of `mtimecmp` with
the full register value, whatever the width (R245). -/
def Obligations.UartAndClintStores : Prop :=
  ∀ (f : StoreForm) (s : State) (rs1 rs2 : Reg) (imm : BitVec 12), s.cfg.Valid →
    let ea := effective s rs1 imm
    let i := f.instr rs1 rs2 imm
    Aligned ea f.width →
    (ea = s.cfg.mmioBase + s.cfg.uartDataOff →
      exec i s = .next { s with pc := s.pc + 4, console := s.console ++ [(s.x rs2).extractLsb' 0 8] }) ∧
    (ea = s.cfg.mmioBase + s.cfg.clintCmpLoOff → ∃ t, exec i s = .next t ∧
      t.mtimecmp.extractLsb' 0 32 = s.x rs2 ∧ t.mtimecmp.extractLsb' 32 32 = s.mtimecmp.extractLsb' 32 32 ∧
      t = { s with pc := s.pc + 4, mtimecmp := t.mtimecmp }) ∧
    (ea = s.cfg.mmioBase + s.cfg.clintCmpHiOff → ∃ t, exec i s = .next t ∧
      t.mtimecmp.extractLsb' 32 32 = s.x rs2 ∧ t.mtimecmp.extractLsb' 0 32 = s.mtimecmp.extractLsb' 0 32 ∧
      t = { s with pc := s.pc + 4, mtimecmp := t.mtimecmp })

/-- R251: the swap store copies the whole pixel region to the presentation buffer and sets `vblank`; no backing byte is
written. -/
def Obligations.SwapCopiesPixelRegion : Prop :=
  ∀ (f : StoreForm) (s : State) (rs1 rs2 : Reg) (imm : BitVec 12), s.cfg.Valid →
    effective s rs1 imm = s.cfg.mmioBase + s.cfg.fbSwapOff →
    ∃ t, exec (f.instr rs1 rs2 imm) s = .next t ∧ t.vblank = true ∧
      (∀ k < s.cfg.fbWidth.toNat * s.cfg.fbHeight.toNat * 4,
        Memory.read t.present k = Memory.read s.mem (s.cfg.mmioBase.toNat + s.cfg.fbPixelsOff.toNat + k)) ∧
      t = { s with pc := s.pc + 4, present := t.present, vblank := t.vblank }

/-- The SYSCON store (R253): restart, and the host's next turn performs the reset (R254); power-off with the cycle count, after
which nothing is executed (R255); or the low bytes stored and nothing else, which a load there gives back (R256). The model's
readings: the reset is a step of its own (log entry 9), after power-off `step` answers the fault `runEnded` (log entry 8), and the
two sentinels of a legal configuration differ (log entry 17). -/
def Obligations.SysconStoreActs : Prop :=
  ∀ (f : StoreForm) (s : State) (rs1 rs2 : Reg) (imm : BitVec 12), s.cfg.Valid → s.mem.wf = true →
    let i := f.instr rs1 rs2 imm
    let v := s.x rs2
    effective s rs1 imm = s.cfg.mmioBase + s.cfg.sysconOff →
    (v = s.cfg.sysconRestart → ∃ t, exec i s = .next t ∧
      t = { s with pc := s.pc + 4, phase := .ready (some .restart) } ∧
      ∀ setVblank elapsed budget, t.nextTurn = .call setVblank elapsed budget → step t = .next { t.resetAll with phase := .rebooted }) ∧
    (v = s.cfg.sysconPoweroff → ∃ t, exec i s = .next t ∧
      t = { s with pc := s.pc + 4, phase := .ready (some (.poweroff s.cycle64)) } ∧ step t = .fault .runEnded) ∧
    (v ≠ s.cfg.sysconRestart → v ≠ s.cfg.sysconPoweroff → ∃ t, exec i s = .next t ∧
      BytesStored s t (s.cfg.mmioBase + s.cfg.sysconOff) f.width v ∧ t = { s with pc := s.pc + 4, mem := t.mem } ∧
      ∀ (g : LoadForm) (rd : Reg), Retires (g.instr rd rs1 imm) t rd
        (g.extend (bytesValue t.mem (s.cfg.mmioBase + s.cfg.sysconOff).toNat g.width)))

/-- R240: exactly the twelve (address, direction) pairs of its table are intercepted, each by its own device register. -/
def Obligations.DispatcherInterceptsExactlyTheTable : Prop :=
  ∀ (c : Config) (a : Word), c.Valid →
    (loadPort c a = none ↔ a ∉ interceptedLoads c) ∧ (storePort c a = none ↔ a ∉ interceptedStores c) ∧
    (loadPort c a = some .uartData ↔ a = c.mmioBase + c.uartDataOff) ∧
    (loadPort c a = some .uartStatus ↔ a = c.mmioBase + c.uartLsrOff) ∧
    (loadPort c a = some .cmpLo ↔ a = c.mmioBase + c.clintCmpLoOff) ∧
    (loadPort c a = some .cmpHi ↔ a = c.mmioBase + c.clintCmpHiOff) ∧
    (loadPort c a = some .timeLo ↔ a = c.mmioBase + c.clintTimeLoOff) ∧
    (loadPort c a = some .timeHi ↔ a = c.mmioBase + c.clintTimeHiOff) ∧
    (loadPort c a = some .vblank ↔ a = c.mmioBase + c.fbVblankOff) ∧
    (storePort c a = some .uartData ↔ a = c.mmioBase + c.uartDataOff) ∧
    (storePort c a = some .cmpLo ↔ a = c.mmioBase + c.clintCmpLoOff) ∧
    (storePort c a = some .cmpHi ↔ a = c.mmioBase + c.clintCmpHiOff) ∧
    (storePort c a = some .swap ↔ a = c.mmioBase + c.fbSwapOff) ∧
    (storePort c a = some .syscon ↔ a = c.mmioBase + c.sysconOff) ∧
    (a ∈ interceptedLoads c ∨ a ∈ interceptedStores c → InMmio c a)

/-- R247: a store to a timer register writes the backing bytes and leaves `mtime`; a later load there still gives `mtime`. -/
def Obligations.TimerStoresReachBackingBytesOnly : Prop :=
  ∀ (f : StoreForm) (g : LoadForm) (s : State) (rs1 rs2 rd : Reg) (imm : BitVec 12), s.cfg.Valid → s.mem.wf = true →
    let ea := effective s rs1 imm
    (ea = s.cfg.mmioBase + s.cfg.clintTimeLoOff ∨ ea = s.cfg.mmioBase + s.cfg.clintTimeHiOff) →
    ∃ t, exec (f.instr rs1 rs2 imm) s = .next t ∧ t.mtime = s.mtime ∧ BytesStored s t ea f.width (s.x rs2) ∧
      t = { s with pc := s.pc + 4, mem := t.mem } ∧
      (ea = s.cfg.mmioBase + s.cfg.clintTimeLoOff →
        Retires (g.instr rd rs1 imm) t rd (g.extend (s.mtime.extractLsb' 0 32))) ∧
      (ea = s.cfg.mmioBase + s.cfg.clintTimeHiOff →
        Retires (g.instr rd rs1 imm) t rd (g.extend (s.mtime.extractLsb' 32 32)))

/-- R204: a byte load from inside a word just stored gives that byte of the value. R222: a word stored to RAM is what the next
fetch from there reads. -/
def Obligations.MemoryIsLittleEndianAndCoherent : Prop :=
  (∀ (s t : State) (rs1 rs2 rd : Reg) (imm : BitVec 12) (k : Nat), s.cfg.Valid → s.mem.wf = true → k < 4 →
    let ea := effective s rs1 imm
    Aligned ea .word → InRam s.cfg ea → exec (.sw rs1 rs2 imm) s = .next t →
    ∀ (b : Reg) (off : BitVec 12), effective t b off = ea + BitVec.ofNat 32 k →
      Retires (.lbu rd b off) t rd (((s.x rs2).extractLsb' (8 * k) 8).setWidth 32)) ∧
  ∀ (s t : State) (rs1 rs2 : Reg) (imm : BitVec 12), s.mem.wf = true →
    effective s rs1 imm = s.pc + 4 → Aligned (s.pc + 4) .word → InRam s.cfg (s.pc + 4) →
    exec (.sw rs1 rs2 imm) s = .next t → t.fetch = .ok (s.x rs2)

/-- Alignment is checked before the region for every load, store and atomic (R206, R207): a misaligned access raises the
misaligned exception of its class wherever it goes; an aligned one outside both regions raises the access fault; LR.W, SC.W and
the AMOs raise it in the MMIO window too (R257); and no aligned access straddles two regions. -/
def Obligations.MemoryChecksComeInOrder : Prop :=
  (∀ (s : State) (rd rs1 rs2 : Reg) (imm : BitVec 12) (aq rl : Bool),
    let ea := effective s rs1 imm
    let a := s.x rs1
    let storing := [Instr.scW rd rs1 rs2 aq rl, .amoswapW rd rs1 rs2 aq rl, .amoaddW rd rs1 rs2 aq rl,
      .amoxorW rd rs1 rs2 aq rl, .amoandW rd rs1 rs2 aq rl, .amoorW rd rs1 rs2 aq rl, .amominW rd rs1 rs2 aq rl,
      .amomaxW rd rs1 rs2 aq rl, .amominuW rd rs1 rs2 aq rl, .amomaxuW rd rs1 rs2 aq rl]
    (∀ f : LoadForm, (¬ Aligned ea f.width → Raises (f.instr rd rs1 imm) s 4 ea) ∧
      (Aligned ea f.width → Unmapped s.cfg ea → Raises (f.instr rd rs1 imm) s 5 ea)) ∧
    (∀ f : StoreForm, (¬ Aligned ea f.width → Raises (f.instr rs1 rs2 imm) s 6 ea) ∧
      (Aligned ea f.width → Unmapped s.cfg ea → Raises (f.instr rs1 rs2 imm) s 7 ea)) ∧
    (¬ Aligned a .word → Raises (.lrW rd rs1 aq rl) s 4 a ∧ ∀ i ∈ storing, Raises i s 6 a) ∧
    (Aligned a .word → ¬ InRam s.cfg a → Raises (.lrW rd rs1 aq rl) s 5 a ∧ ∀ i ∈ storing, Raises i s 7 a)) ∧
  ∀ (c : Config) (a : Word) (w : Width), c.Valid → Aligned a w → ∀ k < w.bytes,
    (InRam c a → InRam c (a + BitVec.ofNat 32 k)) ∧ (InMmio c a → InMmio c (a + BitVec.ofNat 32 k)) ∧
      (Unmapped c a → Unmapped c (a + BitVec.ofNat 32 k))

/-! ### RV32M -/

/-- MUL, MULH, MULHSU, MULHU (R551 to R554): the halves of the 64-bit product of the operands, each extended by its sign. -/
def Obligations.MultiplyResults : Prop :=
  SpelledBy 0x02000033 0xFE00707F (fun w => .mul (rdOf w) (rs1Of w) (rs2Of w)) ∧
    SpelledBy 0x02001033 0xFE00707F (fun w => .mulh (rdOf w) (rs1Of w) (rs2Of w)) ∧
    SpelledBy 0x02002033 0xFE00707F (fun w => .mulhsu (rdOf w) (rs1Of w) (rs2Of w)) ∧
    SpelledBy 0x02003033 0xFE00707F (fun w => .mulhu (rdOf w) (rs1Of w) (rs2Of w)) ∧
    ∀ (s : State) (rd rs1 rs2 : Reg),
      let a := s.x rs1
      let b := s.x rs2
      Retires (.mul rd rs1 rs2) s rd ((a.signExtend 64 * b.signExtend 64).extractLsb' 0 32) ∧
        Retires (.mulh rd rs1 rs2) s rd ((a.signExtend 64 * b.signExtend 64).extractLsb' 32 32) ∧
        Retires (.mulhsu rd rs1 rs2) s rd ((a.signExtend 64 * b.setWidth 64).extractLsb' 32 32) ∧
        Retires (.mulhu rd rs1 rs2) s rd ((a.setWidth 64 * b.setWidth 64).extractLsb' 32 32)

/-- DIV, DIVU, REM, REMU (R555 to R558): quotients truncated toward zero, remainders with the sign of the dividend, and the
sentinel results for a zero divisor and for signed overflow (R559). -/
def Obligations.DivideResults : Prop :=
  SpelledBy 0x02004033 0xFE00707F (fun w => .div (rdOf w) (rs1Of w) (rs2Of w)) ∧
    SpelledBy 0x02005033 0xFE00707F (fun w => .divu (rdOf w) (rs1Of w) (rs2Of w)) ∧
    SpelledBy 0x02006033 0xFE00707F (fun w => .rem (rdOf w) (rs1Of w) (rs2Of w)) ∧
    SpelledBy 0x02007033 0xFE00707F (fun w => .remu (rdOf w) (rs1Of w) (rs2Of w)) ∧
    ∀ (s : State) (rd rs1 rs2 : Reg),
      let a := s.x rs1
      let b := s.x rs2
      (b = 0 → Retires (.div rd rs1 rs2) s rd 0xFFFFFFFF ∧ Retires (.divu rd rs1 rs2) s rd 0xFFFFFFFF ∧
        Retires (.rem rd rs1 rs2) s rd a ∧ Retires (.remu rd rs1 rs2) s rd a) ∧
      (a = 0x80000000 → b = 0xFFFFFFFF →
        Retires (.div rd rs1 rs2) s rd 0x80000000 ∧ Retires (.divu rd rs1 rs2) s rd 0 ∧
        Retires (.rem rd rs1 rs2) s rd 0 ∧ Retires (.remu rd rs1 rs2) s rd 0x80000000) ∧
      (b ≠ 0 → Retires (.divu rd rs1 rs2) s rd (BitVec.ofNat 32 (a.toNat / b.toNat)) ∧
        Retires (.remu rd rs1 rs2) s rd (BitVec.ofNat 32 (a.toNat % b.toNat))) ∧
      (b ≠ 0 → ¬ (a = 0x80000000 ∧ b = 0xFFFFFFFF) →
        Retires (.div rd rs1 rs2) s rd (BitVec.ofInt 32 (a.toInt.tdiv b.toInt)) ∧
        Retires (.rem rd rs1 rs2) s rd (BitVec.ofInt 32 (a.toInt.tmod b.toInt)))

/-- The identity of R559: for every divisor, dividend = divisor * quotient + remainder modulo 2^32, signed and unsigned. -/
def Obligations.DivisionIdentity : Prop :=
  ∀ (s : State) (rd rs1 rs2 : Reg), ∃ q r uq ur : Word,
    Retires (.div rd rs1 rs2) s rd q ∧ Retires (.rem rd rs1 rs2) s rd r ∧ s.x rs1 = s.x rs2 * q + r ∧
      Retires (.divu rd rs1 rs2) s rd uq ∧ Retires (.remu rd rs1 rs2) s rd ur ∧ s.x rs1 = s.x rs2 * uq + ur

/-! ### RV32A -/

/-- LR.W (R600), with every value of aq and rl (R602). -/
def Obligations.LoadReservedReadsAndReserves : Prop :=
  SpelledBy 0x1000202F 0xF9F0707F (fun w => .lrW (rdOf w) (rs1Of w) (w.getLsbD 26) (w.getLsbD 25)) ∧
    (∀ w : Word, opcodeOf w = 0b0101111#7 → funct5Of w = 0b00010#5 → rs2Of w ≠ 0b00000#5 → Illegal w) ∧
    ∀ (s : State) (rd rs1 : Reg) (aq rl : Bool),
      let a := s.x rs1
      let i := Instr.lrW rd rs1 aq rl
      (Aligned a .word → InRam s.cfg a → ∃ t, exec i s = .next t ∧
        RegisterWritten s t rd (bytesValue s.mem a.toNat .word) ∧ t.pc = s.pc + 4 ∧
        t = { s with regs := t.regs, pc := t.pc, resvValid := true, resvAddr := a }) ∧
      (¬ Aligned a .word → Raises i s 4 a) ∧
      (Aligned a .word → ¬ InRam s.cfg a → Raises i s 5 a)

/-- SC.W (R601): it stores and gives 0 when the reservation holds for the address, else it gives 1 and leaves memory; either
way the reservation is cleared. That its address field stays is the model's choice (log entry 15). -/
def Obligations.StoreConditionalSucceedsOrFails : Prop :=
  SpelledBy 0x1800202F 0xF800707F (fun w => .scW (rdOf w) (rs1Of w) (rs2Of w) (w.getLsbD 26) (w.getLsbD 25)) ∧
    ∀ (s : State) (rd rs1 rs2 : Reg) (aq rl : Bool), s.mem.wf = true →
      let a := s.x rs1
      let i := Instr.scW rd rs1 rs2 aq rl
      (Aligned a .word → InRam s.cfg a → s.resvValid = true → s.resvAddr = a → ∃ t, exec i s = .next t ∧
        RegisterWritten s t rd 0 ∧ t.pc = s.pc + 4 ∧ BytesStored s t a .word (s.x rs2) ∧
        t = { s with regs := t.regs, pc := t.pc, mem := t.mem, resvValid := false }) ∧
      (Aligned a .word → InRam s.cfg a → ¬ (s.resvValid = true ∧ s.resvAddr = a) → ∃ t, exec i s = .next t ∧
        RegisterWritten s t rd 1 ∧ t.pc = s.pc + 4 ∧ t = { s with regs := t.regs, pc := t.pc, resvValid := false }) ∧
      (¬ Aligned a .word → Raises i s 6 a) ∧
      (Aligned a .word → ¬ InRam s.cfg a → Raises i s 7 a)

/-- The nine AMOs (R603 to R612): the old word to `rd`, `op(old, x[rs2])` to memory, nothing else; or the exception before
the read. -/
def Obligations.AmoReadsModifiesWrites : Prop :=
  let spelled := fun (value : Word) (mk : Reg → Reg → Reg → Bool → Bool → Instr) =>
    SpelledBy value 0xF800707F (fun w => mk (rdOf w) (rs1Of w) (rs2Of w) (w.getLsbD 26) (w.getLsbD 25))
  spelled 0x0800202F .amoswapW ∧ spelled 0x0000202F .amoaddW ∧ spelled 0x2000202F .amoxorW ∧
    spelled 0x6000202F .amoandW ∧ spelled 0x4000202F .amoorW ∧ spelled 0x8000202F .amominW ∧
    spelled 0xA000202F .amomaxW ∧ spelled 0xC000202F .amominuW ∧ spelled 0xE000202F .amomaxuW ∧
    ∀ (s : State) (rd rs1 rs2 : Reg) (aq rl : Bool), s.mem.wf = true →
      let a := s.x rs1
      let b := s.x rs2
      let old := bytesValue s.mem a.toNat .word
      ∀ p ∈ [(Instr.amoswapW rd rs1 rs2 aq rl, b), (.amoaddW rd rs1 rs2 aq rl, old + b),
          (.amoxorW rd rs1 rs2 aq rl, old ^^^ b), (.amoandW rd rs1 rs2 aq rl, old &&& b),
          (.amoorW rd rs1 rs2 aq rl, old ||| b),
          (.amominW rd rs1 rs2 aq rl, if old.toInt < b.toInt then old else b),
          (.amomaxW rd rs1 rs2 aq rl, if b.toInt < old.toInt then old else b),
          (.amominuW rd rs1 rs2 aq rl, if old.toNat < b.toNat then old else b),
          (.amomaxuW rd rs1 rs2 aq rl, if b.toNat < old.toNat then old else b)],
        (Aligned a .word → InRam s.cfg a → ∃ t, exec p.1 s = .next t ∧ RegisterWritten s t rd old ∧ t.pc = s.pc + 4 ∧
          BytesStored s t a .word p.2 ∧ t = { s with regs := t.regs, pc := t.pc, mem := t.mem }) ∧
        (¬ Aligned a .word → Raises p.1 s 6 a) ∧
        (Aligned a .word → ¬ InRam s.cfg a → Raises p.1 s 7 a)

/-- R113: LR.W sets the reservation, SC.W always clears it, a reset clears it, and nothing else changes it: not a step that
begins any other instruction, whatever becomes of it, not an LR.W or SC.W that traps, and not a turn of the host. -/
def Obligations.OnlyReservationInstructionsChangeIt : Prop :=
  (∀ s t : State, step s = .next t → (∀ i, Begins s i → i.touchesReservation = false) →
    s.phase ≠ .ready (some .restart) → t.resvValid = s.resvValid ∧ t.resvAddr = s.resvAddr) ∧
  (∀ (s : State) (rd rs1 : Reg) (aq rl : Bool), Aligned (s.x rs1) .word → InRam s.cfg (s.x rs1) →
    ∃ t, exec (.lrW rd rs1 aq rl) s = .next t ∧ t.resvValid = true ∧ t.resvAddr = s.x rs1) ∧
  (∀ (s : State) (rd rs1 rs2 : Reg) (aq rl : Bool), Aligned (s.x rs1) .word → InRam s.cfg (s.x rs1) →
    ∃ t, exec (.scW rd rs1 rs2 aq rl) s = .next t ∧ t.resvValid = false) ∧
  (∀ (s t : State) (i : Instr) (n : Nat), s.phase = .running n → exec i s = .next t →
    (t.phase = .ready (some .continues) ∨ ∃ cause tval, t.phase = .ready (some (.fatal cause tval))) →
    t.resvValid = s.resvValid ∧ t.resvAddr = s.resvAddr) ∧
  ∀ (s t : State), s.phase = .ready (some .restart) → step s = .next t → t.phase ≠ .stopped →
    t.resvValid = false ∧ t.resvAddr = 0

/-- What R613 derives from R600, R601 and R113, an inference the spec marks as its own: after an LR.W, whatever runs without
another LR.W or SC.W or a reset, traps, interrupts and host turns included, an SC.W to the same RAM word succeeds; and an AMO to
an aligned RAM word completes. -/
def Obligations.ReservedPairAlwaysSucceeds : Prop :=
  (∀ (s : State) (rd rs1 rs2 : Reg) (aq rl : Bool), Aligned (s.x rs1) .word → InRam s.cfg (s.x rs1) →
    ∀ i ∈ [Instr.amoswapW rd rs1 rs2 aq rl, .amoaddW rd rs1 rs2 aq rl, .amoxorW rd rs1 rs2 aq rl,
        .amoandW rd rs1 rs2 aq rl, .amoorW rd rs1 rs2 aq rl, .amominW rd rs1 rs2 aq rl, .amomaxW rd rs1 rs2 aq rl,
        .amominuW rd rs1 rs2 aq rl, .amomaxuW rd rs1 rs2 aq rl],
      ∃ t, exec i s = .next t ∧ t.pc = s.pc + 4 ∧ t.phase = s.phase) ∧
  ∀ (s u t : State) (rd rs1 rd' rs1' rs2' : Reg) (aq rl aq' rl' : Bool),
    Aligned (s.x rs1) .word → InRam s.cfg (s.x rs1) → exec (.lrW rd rs1 aq rl) s = .next u →
    ReachesKeepingReservation u t → t.x rs1' = s.x rs1 →
    ∃ v, exec (.scW rd' rs1' rs2' aq' rl') t = .next v ∧ RegisterWritten t v rd' 0 ∧ v.resvValid = false

/-! ### Fences, system instructions, traps -/

/-- FENCE and FENCE.I (R650, R651): every value of their fields is accepted, and only the pc changes. -/
def Obligations.FencesOnlyAdvancePc : Prop :=
  SpelledBy 0x0000000F 0x0000707F
      (fun w => .fence (rdOf w) (rs1Of w) (w.extractLsb' 20 4) (w.extractLsb' 24 4) (w.extractLsb' 28 4)) ∧
    SpelledBy 0x0000100F 0x0000707F (fun w => .fenceI (rdOf w) (rs1Of w) (w.extractLsb' 20 12)) ∧
    ∀ (s : State) (rd rs1 : Reg) (succ pred fm : BitVec 4) (imm : BitVec 12),
      OnlyMovesPc (.fence rd rs1 succ pred fm) s (s.pc + 4) ∧ OnlyMovesPc (.fenceI rd rs1 imm) s (s.pc + 4)

/-- ECALL (R660) and EBREAK (R661): always the trap, with the cause of the mode, the trap value and the pc of the instruction. -/
def Obligations.EnvironmentCallAndBreakpointTrap : Prop :=
  SpelledBy 0x00000073 0xFFFFFFFF (fun _ => .ecall) ∧ SpelledBy 0x00100073 0xFFFFFFFF (fun _ => .ebreak) ∧
    ∀ s : State,
      (s.priv = .user → Raises .ecall s 0x00000008 0) ∧ (s.priv = .machine → Raises .ecall s 0x0000000B 0) ∧
        Raises .ebreak s 0x00000003 s.pc

/-- R720 for all ten exceptions with the causes of R710 and the trap values of R711, and for the timer interrupt; in strict
mode an exception ends the batch with `fatal` and changes nothing else, and the interrupt is not affected (R765). -/
def Obligations.TrapEntrySavesAndTransfers : Prop :=
  (∀ (s : State) (v : Word), ∀ p ∈ [(Exception.instrAddrMisaligned v, (0 : Word), v), (.instrAccessFault v, 1, v),
      (.illegalInstruction v, 2, v), (.breakpoint v, 3, v), (.loadAddrMisaligned v, 4, v), (.loadAccessFault v, 5, v),
      (.storeAddrMisaligned v, 6, v), (.storeAccessFault v, 7, v), (.envCallFromU, 8, 0), (.envCallFromM, 11, 0)],
    ∃ t, raise p.1 s = .next t ∧
      (s.cfg.strictTraps = true → t = { s with phase := .ready (some (.fatal p.2.1 p.2.2)) }) ∧
      (s.cfg.strictTraps = false → TrapEntered s t p.2.1 p.2.2)) ∧
  ∀ (s : State) (budget : Nat), s.mtip = true → s.mtie = true → s.mstatus.mie = true →
    TrapEntered s (s.deliverInterrupt budget) 0x80000007 0

/-- MRET (R662): the return in M mode, and in U mode the illegal-instruction exception. -/
def Obligations.MretRestores : Prop :=
  SpelledBy 0x30200073 0xFFFFFFFF (fun _ => .mret) ∧
    (∀ s : State, s.priv = .machine →
      exec .mret s = .next { s with
        priv := s.mstatus.mpp, pc := s.mepc, mstatus := { mie := s.mstatus.mpie, mpie := true, mpp := .user } }) ∧
    ∀ s : State, s.priv = .user → Raises .mret s 2 0x30200073

/-- WFI (R663): a no-op when the timer interrupt is pending and enabled, `mstatus.MIE` aside; else the hart waits and the batch
ends with `idle`. It is legal in both modes. -/
def Obligations.WfiWaitsUnlessPending : Prop :=
  SpelledBy 0x10500073 0xFFFFFFFF (fun _ => .wfi) ∧
    ∀ s : State,
      ((s.mtip = true ∧ s.mtie = true) → OnlyMovesPc .wfi s (s.pc + 4)) ∧
        (¬ (s.mtip = true ∧ s.mtie = true) →
          exec .wfi s = .next { s with pc := s.pc + 4, wfi := true, phase := .ready (some .idle) })

/-! ### CSRs -/

/-- The six CSR instructions (R670 to R676): which read, which write, what is written; and illegal, with the word as trap
value, exactly when R140 says so. -/
def Obligations.CsrInstructionsReadAndWrite : Prop :=
  SpelledBy 0x00001073 0x0000707F (fun w => .csrrw (rdOf w) (rs1Of w) (w.extractLsb' 20 12)) ∧
    SpelledBy 0x00002073 0x0000707F (fun w => .csrrs (rdOf w) (rs1Of w) (w.extractLsb' 20 12)) ∧
    SpelledBy 0x00003073 0x0000707F (fun w => .csrrc (rdOf w) (rs1Of w) (w.extractLsb' 20 12)) ∧
    SpelledBy 0x00005073 0x0000707F (fun w => .csrrwi (rdOf w) (w.extractLsb' 15 5) (w.extractLsb' 20 12)) ∧
    SpelledBy 0x00006073 0x0000707F (fun w => .csrrsi (rdOf w) (w.extractLsb' 15 5) (w.extractLsb' 20 12)) ∧
    SpelledBy 0x00007073 0x0000707F (fun w => .csrrci (rdOf w) (w.extractLsb' 15 5) (w.extractLsb' 20 12)) ∧
    (∀ w : Word, opcodeOf w = 0b1110011#7 → funct3Of w = 0b100#3 → Illegal w) ∧
    (∀ (s : State) (rd rs1 : Reg) (n : CsrNum),
      CsrForm (.csrrw rd rs1 n) s n rd (decide (rd ≠ 0)) true (fun _ => s.x rs1) ∧
      CsrForm (.csrrs rd rs1 n) s n rd true (decide (rs1 ≠ 0)) (fun old => old ||| s.x rs1) ∧
      CsrForm (.csrrc rd rs1 n) s n rd true (decide (rs1 ≠ 0)) (fun old => old &&& ~~~ s.x rs1)) ∧
    ∀ (s : State) (rd : Reg) (uimm : BitVec 5) (n : CsrNum),
      CsrForm (.csrrwi rd uimm n) s n rd (decide (rd ≠ 0)) true (fun _ => uimm.setWidth 32) ∧
      CsrForm (.csrrsi rd uimm n) s n rd true (decide (uimm ≠ 0)) (fun old => old ||| uimm.setWidth 32) ∧
      CsrForm (.csrrci rd uimm n) s n rd true (decide (uimm ≠ 0)) (fun old => old &&& ~~~ uimm.setWidth 32)

/-- `mstatus`, `misa`, `mie`, `mip` (R121, R122, R123, R129), in M mode: what a read gives, what a write changes, and their
reset values. -/
def Obligations.StatusAndInterruptCsrs : Prop :=
  (∀ (c : Config) (image : List Byte), (coldStart c image).mstatus = { mie := false, mpie := false, mpp := .user } ∧
    (coldStart c image).mtie = false ∧ (coldStart c image).mtip = false) ∧
  ∀ (s : State) (rs1 : Reg), s.priv = .machine →
    let v := s.x rs1
    CsrReads 0x300 s (0#19 ++ (if s.mstatus.mpp = .machine then 0b11#2 else 0b00#2) ++ 0#3 ++
        BitVec.ofBool s.mstatus.mpie ++ 0#3 ++ BitVec.ofBool s.mstatus.mie ++ 0#3) ∧
      CsrWrites 0x300 s rs1 { s with mstatus := {
        mie := v.getLsbD 3
        mpie := v.getLsbD 7
        mpp := if v.extractLsb' 11 2 = 0b11#2 then .machine
          else if v.extractLsb' 11 2 = 0b00#2 then .user else s.mstatus.mpp } } ∧
      CsrReads 0x301 s 0x40101101 ∧ CsrWrites 0x301 s rs1 s ∧
      CsrReads 0x304 s (if s.mtie then 0x80 else 0) ∧ CsrWrites 0x304 s rs1 { s with mtie := v.getLsbD 7 } ∧
      CsrReads 0x344 s (if s.mtip then 0x80 else 0) ∧ CsrWrites 0x344 s rs1 s

/-- `mtvec`, `mscratch`, `mepc`, `mcause`, `mtval` (R124 to R128), in M mode: what a read gives, what a write stores (bits 1:0
of `mtvec` and `mepc` dropped), and their reset values. -/
def Obligations.TrapCsrs : Prop :=
  (∀ (s : State) (rs1 : Reg), s.priv = .machine →
    let v := s.x rs1
    CsrReads 0x305 s s.mtvec ∧ CsrWrites 0x305 s rs1 { s with mtvec := v &&& 0xFFFFFFFC } ∧
      CsrReads 0x340 s s.mscratch ∧ CsrWrites 0x340 s rs1 { s with mscratch := v } ∧
      CsrReads 0x341 s s.mepc ∧ CsrWrites 0x341 s rs1 { s with mepc := v &&& 0xFFFFFFFC } ∧
      CsrReads 0x342 s s.mcause ∧ CsrWrites 0x342 s rs1 { s with mcause := v } ∧
      CsrReads 0x343 s s.mtval ∧ CsrWrites 0x343 s rs1 { s with mtval := v }) ∧
  ∀ (c : Config) (image : List Byte),
    let s := coldStart c image
    s.mtvec = 0 ∧ s.mscratch = 0 ∧ s.mepc = 0 ∧ s.mcause = 0 ∧ s.mtval = 0

/-- The read-only CSRs and the "other" numbers (R130, R131, R137): `cycle` and `cycleh` in every mode, the zero identification
registers in M mode, and a number with no meaning reads 0 and ignores a write where R140 allows the access. -/
def Obligations.CounterIdentityAndOtherCsrs : Prop :=
  (∀ s : State, CsrReads 0xC00 s (s.cycle64.extractLsb' 0 32) ∧ CsrReads 0xC80 s (s.cycle64.extractLsb' 32 32)) ∧
    (∀ (s : State) (n : CsrNum), n ∈ [0xF11#12, 0xF12#12, 0xF13#12, 0xF14#12] → s.priv = .machine → CsrReads n s 0) ∧
    (∀ (s : State) (n : CsrNum) (rs1 : Reg),
      n ∈ [0xC00#12, 0xC80#12, 0xF11#12, 0xF12#12, 0xF13#12, 0xF14#12] →
      Raises (.csrrw 0 rs1 n) s 2 (encode (.csrrw 0 rs1 n))) ∧
    ∀ (s : State) (n : CsrNum) (rs1 : Reg), n ∉ Config.implementedCsrs → n ∉ s.cfg.diagnosticCsrs →
      (CsrAllowed s.priv n false → CsrReads n s 0) ∧ (CsrAllowed s.priv n true → CsrWrites n s rs1 s)

/-- The diagnostic CSRs (R132 to R136) where R140 allows the access: what a write appends to the console, that a read of an
output register gives 0, and that a read of the keyboard register takes the first waiting byte or gives `KEY_NONE`. The model's
choice (log entry 5, after R773): the bytes that arrive before the poll come from `keyFeed` or are a free value, join the queue at
the poll, and use up one entry or one draw. -/
def Obligations.DiagnosticCsrs : Prop :=
  ∀ (s : State) (rs1 : Reg), s.cfg.Valid →
    let c := s.cfg
    let v := s.x rs1
    let prints := fun (n : CsrNum) (text : List Byte) =>
      (CsrAllowed s.priv n true → CsrWrites n s rs1 { s with console := s.console ++ text }) ∧
        (CsrAllowed s.priv n false → CsrReads n s 0)
    (∃ digits : List Nat,
      (∀ d ∈ digits, d < 10) ∧ digits ≠ [] ∧ (digits.head? = some 0 → digits = [0]) ∧
      digits.foldl (fun n d => 10 * n + d) 0 = v.toInt.natAbs ∧
      prints c.csrDbgDec ((if v.toInt < 0 then [0x2D#8] else []) ++ digits.map fun d => BitVec.ofNat 8 (0x30 + d))) ∧
    (∃ digits : List Nat,
      (∀ d ∈ digits, d < 16) ∧ digits.length = 8 ∧ digits.foldl (fun n d => 16 * n + d) 0 = v.toNat ∧
      prints c.csrDbgHex (digits.map fun d => BitVec.ofNat 8 (if d < 10 then 0x30 + d else 0x61 + (d - 10)))) ∧
    (∃ text : List Byte,
      (InRam c v → (∀ k < text.length, v.toNat + k < c.ramBase.toNat + c.ramSize.toNat ∧
          text[k]? = some (Memory.read s.mem (v.toNat + k)) ∧ Memory.read s.mem (v.toNat + k) ≠ 0) ∧
        (v.toNat + text.length = c.ramBase.toNat + c.ramSize.toNat ∨
          Memory.read s.mem (v.toNat + text.length) = 0)) ∧
      (¬ InRam c v → text = []) ∧ prints c.csrDbgStr text) ∧
    prints c.csrDbgChar [v.extractLsb' 0 8] ∧
    (CsrAllowed s.priv c.csrDbgGetc true → CsrWrites c.csrDbgGetc s rs1 s) ∧
    (CsrAllowed s.priv c.csrDbgGetc false → ∀ rd : Reg,
      (∀ b rest, queueAtPoll s = b :: rest → ∃ t, exec (.csrrs rd 0 c.csrDbgGetc) s = .next t ∧
        RegisterWritten s t rd (b.setWidth 32) ∧ t.pc = s.pc + 4 ∧ PolledTo s t rest) ∧
      (queueAtPoll s = [] → ∃ t, exec (.csrrs rd 0 c.csrDbgGetc) s = .next t ∧
        RegisterWritten s t rd c.keyNone ∧ t.pc = s.pc + 4 ∧ PolledTo s t []))

/-! ### The batch engine -/

/-- The start of a batch call, in the order of R760: the timer and MTIP (R740), the wait (R741), the interrupt (R742), else the
instructions with the whole budget; and no step inside a batch writes `mtime` or MTIP. `u` is the state after the host's turn is
taken and after steps 1 and 2. The model's choices: where the turn comes from (log entry 4), and that the host's `vblank` set of
R772 is performed just before the timer update, and not before the first call of a cold start (log entry 10). -/
def Obligations.BatchStartUpdatesTimerThenWaitThenInterrupt : Prop :=
  (∀ (s t : State) (left : Nat), s.phase = .running left → step s = .next t → t.mtime = s.mtime ∧ t.mtip = s.mtip) ∧
  ∀ (s : State) (setVblank : Bool) (elapsed : Word) (budget : Nat),
    s.phase ∈ [Phase.ready none, .rebooted, .ready (some .continues), .ready (some .idle)] →
    s.nextTurn = .call setVblank elapsed budget →
    ∃ t u, step s = .next t ∧
      u.mtime = s.mtime + elapsed.setWidth 64 ∧ u.mtip = decide (s.mtimecmp.toNat ≤ u.mtime.toNat) ∧
      u.wfi = (s.wfi && !(u.mtip && s.mtie)) ∧ u.vblank = (s.vblank || (setVblank && decide (s.phase ≠ .ready none))) ∧ u.turns = s.turns.tail ∧
      u.draws = (if s.turns = [] then s.draws + 1 else s.draws) ∧
      u = { s with
        mtime := u.mtime, mtip := u.mtip, wfi := u.wfi, vblank := u.vblank, turns := u.turns, draws := u.draws } ∧
      (u.wfi = true → t = { u with phase := .ready (some .idle) }) ∧
      (u.wfi = false → (u.mtip && u.mtie && u.mstatus.mie) = true → TrapEntered u t 0x80000007 0) ∧
      (u.wfi = false → (u.mtip && u.mtie && u.mstatus.mie) = false → t = { u with phase := .running budget })

/-- A running batch call with budget `n` returns after at most `n + 1` steps, having begun at most `n` instructions (R760, R763). -/
def Obligations.BatchCallReturnsWithinBudget : Prop :=
  ∀ (n : Nat) (s : State), s.phase = .running n →
    ∃ k m t r, k ≤ n + 1 ∧ m ≤ n ∧ StepsIn k s t ∧ t.phase = .ready (some r) ∧ t.cycle64 = s.cycle64 + BitVec.ofNat 64 m ∧
      (r = .continues → m = n ∨ t.pc = t.mtvec)

/-! ### Rules of the whole machine -/

/-- R731: the only way into U mode is MRET with MPP = U; the only ways out of it are a trap and a reset. -/
def Obligations.ModeChangesOnlyByTrapMretReset : Prop :=
  ∀ s t : State, step s = .next t →
    (s.priv = .machine → t.priv = .user → Begins s .mret ∧ s.mstatus.mpp = .user) ∧
    (s.priv = .user → t.priv = .machine →
      s.phase = .ready (some .restart) ∨
        (t.pc = s.mtvec ∧ t.mepc = s.pc &&& 0xFFFFFFFC ∧ t.mstatus = { mie := false, mpie := s.mstatus.mie, mpp := .user }))

/-- R102: a general register changes only in a step that begins an instruction naming it as `rd`, or in a reset; x0 reads zero
in every state (R101). -/
def Obligations.RegistersChangeOnlyAsDestination : Prop :=
  ∀ s t : State, step s = .next t → t.x 0 = 0 ∧
    ∀ r : Reg, t.x r ≠ s.x r → s.phase = .ready (some .restart) ∨ ∃ i, Begins s i ∧ i.destination = some r

/-- For every step but the one that performs a reset: `mtimecmp` changes only by a store to one of its two addresses (R107), and
`mtime` and MTIP only at the start of a batch call, as R740 says. -/
def Obligations.TimerStateWriters : Prop :=
  ∀ s t : State, step s = .next t → (s.phase = .ready (some .restart) → s.nextTurn = .stop) →
    (t.mtimecmp ≠ s.mtimecmp → ∃ (f : StoreForm) (rs1 rs2 : Reg) (imm : BitVec 12), Begins s (f.instr rs1 rs2 imm) ∧
      (effective s rs1 imm = s.cfg.mmioBase + s.cfg.clintCmpLoOff ∨
        effective s rs1 imm = s.cfg.mmioBase + s.cfg.clintCmpHiOff)) ∧
    (t.mtime ≠ s.mtime ∨ t.mtip ≠ s.mtip → ∃ setVblank elapsed budget,
      s.phase ∈ [Phase.ready none, .rebooted, .ready (some .continues), .ready (some .idle)] ∧
        s.nextTurn = .call setVblank elapsed budget ∧ t.mtime = s.mtime + elapsed.setWidth 64 ∧
        t.mtip = decide (s.mtimecmp.toNat ≤ t.mtime.toNat))

/-- R153: the presentation buffer changes only in a store to the swap address, and a restart leaves it. -/
def Obligations.PresentationChangesOnlyBySwap : Prop :=
  ∀ s t : State, step s = .next t → t.present ≠ s.present →
    ∃ (f : StoreForm) (rs1 rs2 : Reg) (imm : BitVec 12), Begins s (f.instr rs1 rs2 imm) ∧
      effective s rs1 imm = s.cfg.mmioBase + s.cfg.fbSwapOff

/-- R160: the console only grows, and only in a step that begins a store to the UART data address or a CSR instruction on one of
the four output registers; a reset leaves it. -/
def Obligations.ConsoleIsAppendOnly : Prop :=
  ∀ s t : State, step s = .next t → s.console <+: t.console ∧
    (t.console ≠ s.console →
      (∃ (f : StoreForm) (rs1 rs2 : Reg) (imm : BitVec 12), Begins s (f.instr rs1 rs2 imm) ∧
        effective s rs1 imm = s.cfg.mmioBase + s.cfg.uartDataOff) ∨
      ∃ (rd rs1 : Reg) (n : CsrNum),
        n ∈ [s.cfg.csrDbgDec, s.cfg.csrDbgHex, s.cfg.csrDbgStr, s.cfg.csrDbgChar] ∧
        ∃ i ∈ [Instr.csrrw rd rs1 n, .csrrs rd rs1 n, .csrrc rd rs1 n, .csrrwi rd rs1 n, .csrrsi rd rs1 n,
          .csrrci rd rs1 n], Begins s i)

/-- An instruction in U mode takes an exception, or it leaves the mode and every machine-mode register as they are (R140,
R730). -/
def Obligations.UserModeCannotChangeMachineState : Prop :=
  ∀ (i : Instr) (s t : State), s.priv = .user → exec i s = .next t →
    (∃ cause tval, TrapTaken s t cause tval) ∨
      (t.priv = .user ∧ t.mstatus = s.mstatus ∧ t.mtie = s.mtie ∧ t.mtip = s.mtip ∧ t.mtvec = s.mtvec ∧
        t.mscratch = s.mscratch ∧ t.mepc = s.mepc ∧ t.mcause = s.mcause ∧ t.mtval = s.mtval)

end Statements
end

