-- ==== Sys2Proof/Laws/Arith.lean ====
section
/-! SUPPORT. The operations of the computational instructions as arithmetic on integers: comparisons, shifts, the high half of a
product, and the identity of division. -/

namespace Sys2Proof.Machine

/-- The word of a comparison that decides `p`. -/
theorem truthWord_decide (p : Prop) [Decidable p] : truthWord (decide p) = if p then 1 else 0 := by
  unfold truthWord
  simp

/-- A left shift multiplies by a power of two and wraps. -/
theorem shiftLeft_eq_ofNat (a : Word) (n : Nat) : a <<< n = BitVec.ofNat 32 (a.toNat * 2 ^ n) := by
  apply BitVec.eq_of_toNat_eq
  simp [Nat.shiftLeft_eq]

/-- A logical right shift divides by a power of two, unsigned. -/
theorem shiftRight_eq_ofNat (a : Word) (n : Nat) : a >>> n = BitVec.ofNat 32 (a.toNat / 2 ^ n) := by
  apply BitVec.eq_of_toNat_eq
  have h : a.toNat / 2 ^ n < 2 ^ 32 := lt_of_le_of_lt (Nat.div_le_self _ _) a.isLt
  rw [BitVec.toNat_ushiftRight, Nat.shiftRight_eq_div_pow, BitVec.toNat_ofNat, Nat.mod_eq_of_lt h]

/-- An arithmetic right shift divides by a power of two, signed, toward minus infinity. -/
theorem sshiftRight_eq_ofInt (a : Word) (n : Nat) : a.sshiftRight n = BitVec.ofInt 32 (a.toInt / 2 ^ n) := by
  rw [BitVec.sshiftRight, Int.shiftRight_eq_div_pow]
  norm_cast

/-- The amount of a register shift is the register modulo 32 (R413). -/
theorem shiftAmount_eq_mod (v : Word) : shiftAmount v = v.toNat % 32 := by simp [shiftAmount]

/-- The high half of an integer product is bits 63:32 of the product in 64 bits. -/
theorem highWord_eq_extract (p : Int) : highWord p = (BitVec.ofInt 64 p).extractLsb' 32 32 := by
  apply BitVec.eq_of_toNat_eq
  simp only [highWord, BitVec.toNat_ofInt, BitVec.extractLsb'_toNat, Nat.shiftRight_eq_div_pow]
  push_cast
  omega

end Sys2Proof.Machine
end

