-- ==== Sys2Proof/Laws/State.lean ====
section
/-! SUPPORT. One lemma for each field of State under each named update, so that no later proof unfolds a record update. -/

namespace Sys2Proof.Machine

/-! ### `setPc` -/

@[simp] theorem State.setPc_cfg (s : State) (t : Word) : (s.setPc t).cfg = s.cfg := rfl
@[simp] theorem State.setPc_firmware (s : State) (t : Word) : (s.setPc t).firmware = s.firmware := rfl
@[simp] theorem State.setPc_regs (s : State) (t : Word) : (s.setPc t).regs = s.regs := rfl
@[simp] theorem State.setPc_pc (s : State) (t : Word) : (s.setPc t).pc = t := rfl
@[simp] theorem State.setPc_cycle64 (s : State) (t : Word) : (s.setPc t).cycle64 = s.cycle64 := rfl
@[simp] theorem State.setPc_mtime (s : State) (t : Word) : (s.setPc t).mtime = s.mtime := rfl
@[simp] theorem State.setPc_mtimecmp (s : State) (t : Word) : (s.setPc t).mtimecmp = s.mtimecmp := rfl
@[simp] theorem State.setPc_priv (s : State) (t : Word) : (s.setPc t).priv = s.priv := rfl
@[simp] theorem State.setPc_wfi (s : State) (t : Word) : (s.setPc t).wfi = s.wfi := rfl
@[simp] theorem State.setPc_resvValid (s : State) (t : Word) : (s.setPc t).resvValid = s.resvValid := rfl
@[simp] theorem State.setPc_resvAddr (s : State) (t : Word) : (s.setPc t).resvAddr = s.resvAddr := rfl
@[simp] theorem State.setPc_mstatus (s : State) (t : Word) : (s.setPc t).mstatus = s.mstatus := rfl
@[simp] theorem State.setPc_mtie (s : State) (t : Word) : (s.setPc t).mtie = s.mtie := rfl
@[simp] theorem State.setPc_mtip (s : State) (t : Word) : (s.setPc t).mtip = s.mtip := rfl
@[simp] theorem State.setPc_mtvec (s : State) (t : Word) : (s.setPc t).mtvec = s.mtvec := rfl
@[simp] theorem State.setPc_mscratch (s : State) (t : Word) : (s.setPc t).mscratch = s.mscratch := rfl
@[simp] theorem State.setPc_mepc (s : State) (t : Word) : (s.setPc t).mepc = s.mepc := rfl
@[simp] theorem State.setPc_mcause (s : State) (t : Word) : (s.setPc t).mcause = s.mcause := rfl
@[simp] theorem State.setPc_mtval (s : State) (t : Word) : (s.setPc t).mtval = s.mtval := rfl
@[simp] theorem State.setPc_mem (s : State) (t : Word) : (s.setPc t).mem = s.mem := rfl
@[simp] theorem State.setPc_vblank (s : State) (t : Word) : (s.setPc t).vblank = s.vblank := rfl
@[simp] theorem State.setPc_present (s : State) (t : Word) : (s.setPc t).present = s.present := rfl
@[simp] theorem State.setPc_kbd (s : State) (t : Word) : (s.setPc t).kbd = s.kbd := rfl
@[simp] theorem State.setPc_console (s : State) (t : Word) : (s.setPc t).console = s.console := rfl
@[simp] theorem State.setPc_phase (s : State) (t : Word) : (s.setPc t).phase = s.phase := rfl
@[simp] theorem State.setPc_turns (s : State) (t : Word) : (s.setPc t).turns = s.turns := rfl
@[simp] theorem State.setPc_keyFeed (s : State) (t : Word) : (s.setPc t).keyFeed = s.keyFeed := rfl
@[simp] theorem State.setPc_draws (s : State) (t : Word) : (s.setPc t).draws = s.draws := rfl

/-! ### `advance` -/

@[simp] theorem State.advance_cfg (s : State) : (s.advance).cfg = s.cfg := rfl
@[simp] theorem State.advance_firmware (s : State) : (s.advance).firmware = s.firmware := rfl
@[simp] theorem State.advance_regs (s : State) : (s.advance).regs = s.regs := rfl
@[simp] theorem State.advance_pc (s : State) : (s.advance).pc = s.pc + 4 := rfl
@[simp] theorem State.advance_cycle64 (s : State) : (s.advance).cycle64 = s.cycle64 := rfl
@[simp] theorem State.advance_mtime (s : State) : (s.advance).mtime = s.mtime := rfl
@[simp] theorem State.advance_mtimecmp (s : State) : (s.advance).mtimecmp = s.mtimecmp := rfl
@[simp] theorem State.advance_priv (s : State) : (s.advance).priv = s.priv := rfl
@[simp] theorem State.advance_wfi (s : State) : (s.advance).wfi = s.wfi := rfl
@[simp] theorem State.advance_resvValid (s : State) : (s.advance).resvValid = s.resvValid := rfl
@[simp] theorem State.advance_resvAddr (s : State) : (s.advance).resvAddr = s.resvAddr := rfl
@[simp] theorem State.advance_mstatus (s : State) : (s.advance).mstatus = s.mstatus := rfl
@[simp] theorem State.advance_mtie (s : State) : (s.advance).mtie = s.mtie := rfl
@[simp] theorem State.advance_mtip (s : State) : (s.advance).mtip = s.mtip := rfl
@[simp] theorem State.advance_mtvec (s : State) : (s.advance).mtvec = s.mtvec := rfl
@[simp] theorem State.advance_mscratch (s : State) : (s.advance).mscratch = s.mscratch := rfl
@[simp] theorem State.advance_mepc (s : State) : (s.advance).mepc = s.mepc := rfl
@[simp] theorem State.advance_mcause (s : State) : (s.advance).mcause = s.mcause := rfl
@[simp] theorem State.advance_mtval (s : State) : (s.advance).mtval = s.mtval := rfl
@[simp] theorem State.advance_mem (s : State) : (s.advance).mem = s.mem := rfl
@[simp] theorem State.advance_vblank (s : State) : (s.advance).vblank = s.vblank := rfl
@[simp] theorem State.advance_present (s : State) : (s.advance).present = s.present := rfl
@[simp] theorem State.advance_kbd (s : State) : (s.advance).kbd = s.kbd := rfl
@[simp] theorem State.advance_console (s : State) : (s.advance).console = s.console := rfl
@[simp] theorem State.advance_phase (s : State) : (s.advance).phase = s.phase := rfl
@[simp] theorem State.advance_turns (s : State) : (s.advance).turns = s.turns := rfl
@[simp] theorem State.advance_keyFeed (s : State) : (s.advance).keyFeed = s.keyFeed := rfl
@[simp] theorem State.advance_draws (s : State) : (s.advance).draws = s.draws := rfl

/-! ### `output` -/

@[simp] theorem State.output_cfg (s : State) (bs : List Byte) : (s.output bs).cfg = s.cfg := rfl
@[simp] theorem State.output_firmware (s : State) (bs : List Byte) : (s.output bs).firmware = s.firmware := rfl
@[simp] theorem State.output_regs (s : State) (bs : List Byte) : (s.output bs).regs = s.regs := rfl
@[simp] theorem State.output_pc (s : State) (bs : List Byte) : (s.output bs).pc = s.pc := rfl
@[simp] theorem State.output_cycle64 (s : State) (bs : List Byte) : (s.output bs).cycle64 = s.cycle64 := rfl
@[simp] theorem State.output_mtime (s : State) (bs : List Byte) : (s.output bs).mtime = s.mtime := rfl
@[simp] theorem State.output_mtimecmp (s : State) (bs : List Byte) : (s.output bs).mtimecmp = s.mtimecmp := rfl
@[simp] theorem State.output_priv (s : State) (bs : List Byte) : (s.output bs).priv = s.priv := rfl
@[simp] theorem State.output_wfi (s : State) (bs : List Byte) : (s.output bs).wfi = s.wfi := rfl
@[simp] theorem State.output_resvValid (s : State) (bs : List Byte) : (s.output bs).resvValid = s.resvValid := rfl
@[simp] theorem State.output_resvAddr (s : State) (bs : List Byte) : (s.output bs).resvAddr = s.resvAddr := rfl
@[simp] theorem State.output_mstatus (s : State) (bs : List Byte) : (s.output bs).mstatus = s.mstatus := rfl
@[simp] theorem State.output_mtie (s : State) (bs : List Byte) : (s.output bs).mtie = s.mtie := rfl
@[simp] theorem State.output_mtip (s : State) (bs : List Byte) : (s.output bs).mtip = s.mtip := rfl
@[simp] theorem State.output_mtvec (s : State) (bs : List Byte) : (s.output bs).mtvec = s.mtvec := rfl
@[simp] theorem State.output_mscratch (s : State) (bs : List Byte) : (s.output bs).mscratch = s.mscratch := rfl
@[simp] theorem State.output_mepc (s : State) (bs : List Byte) : (s.output bs).mepc = s.mepc := rfl
@[simp] theorem State.output_mcause (s : State) (bs : List Byte) : (s.output bs).mcause = s.mcause := rfl
@[simp] theorem State.output_mtval (s : State) (bs : List Byte) : (s.output bs).mtval = s.mtval := rfl
@[simp] theorem State.output_mem (s : State) (bs : List Byte) : (s.output bs).mem = s.mem := rfl
@[simp] theorem State.output_vblank (s : State) (bs : List Byte) : (s.output bs).vblank = s.vblank := rfl
@[simp] theorem State.output_present (s : State) (bs : List Byte) : (s.output bs).present = s.present := rfl
@[simp] theorem State.output_kbd (s : State) (bs : List Byte) : (s.output bs).kbd = s.kbd := rfl
@[simp] theorem State.output_console (s : State) (bs : List Byte) : (s.output bs).console = s.console ++ bs := rfl
@[simp] theorem State.output_phase (s : State) (bs : List Byte) : (s.output bs).phase = s.phase := rfl
@[simp] theorem State.output_turns (s : State) (bs : List Byte) : (s.output bs).turns = s.turns := rfl
@[simp] theorem State.output_keyFeed (s : State) (bs : List Byte) : (s.output bs).keyFeed = s.keyFeed := rfl
@[simp] theorem State.output_draws (s : State) (bs : List Byte) : (s.output bs).draws = s.draws := rfl

/-! ### `storeBytes` -/

@[simp] theorem State.storeBytes_cfg (s : State) (a : Word) (w : Width) (v : Word) : (s.storeBytes a w v).cfg = s.cfg := rfl
@[simp] theorem State.storeBytes_firmware (s : State) (a : Word) (w : Width) (v : Word) : (s.storeBytes a w v).firmware = s.firmware := rfl
@[simp] theorem State.storeBytes_regs (s : State) (a : Word) (w : Width) (v : Word) : (s.storeBytes a w v).regs = s.regs := rfl
@[simp] theorem State.storeBytes_pc (s : State) (a : Word) (w : Width) (v : Word) : (s.storeBytes a w v).pc = s.pc := rfl
@[simp] theorem State.storeBytes_cycle64 (s : State) (a : Word) (w : Width) (v : Word) : (s.storeBytes a w v).cycle64 = s.cycle64 := rfl
@[simp] theorem State.storeBytes_mtime (s : State) (a : Word) (w : Width) (v : Word) : (s.storeBytes a w v).mtime = s.mtime := rfl
@[simp] theorem State.storeBytes_mtimecmp (s : State) (a : Word) (w : Width) (v : Word) : (s.storeBytes a w v).mtimecmp = s.mtimecmp := rfl
@[simp] theorem State.storeBytes_priv (s : State) (a : Word) (w : Width) (v : Word) : (s.storeBytes a w v).priv = s.priv := rfl
@[simp] theorem State.storeBytes_wfi (s : State) (a : Word) (w : Width) (v : Word) : (s.storeBytes a w v).wfi = s.wfi := rfl
@[simp] theorem State.storeBytes_resvValid (s : State) (a : Word) (w : Width) (v : Word) : (s.storeBytes a w v).resvValid = s.resvValid := rfl
@[simp] theorem State.storeBytes_resvAddr (s : State) (a : Word) (w : Width) (v : Word) : (s.storeBytes a w v).resvAddr = s.resvAddr := rfl
@[simp] theorem State.storeBytes_mstatus (s : State) (a : Word) (w : Width) (v : Word) : (s.storeBytes a w v).mstatus = s.mstatus := rfl
@[simp] theorem State.storeBytes_mtie (s : State) (a : Word) (w : Width) (v : Word) : (s.storeBytes a w v).mtie = s.mtie := rfl
@[simp] theorem State.storeBytes_mtip (s : State) (a : Word) (w : Width) (v : Word) : (s.storeBytes a w v).mtip = s.mtip := rfl
@[simp] theorem State.storeBytes_mtvec (s : State) (a : Word) (w : Width) (v : Word) : (s.storeBytes a w v).mtvec = s.mtvec := rfl
@[simp] theorem State.storeBytes_mscratch (s : State) (a : Word) (w : Width) (v : Word) : (s.storeBytes a w v).mscratch = s.mscratch := rfl
@[simp] theorem State.storeBytes_mepc (s : State) (a : Word) (w : Width) (v : Word) : (s.storeBytes a w v).mepc = s.mepc := rfl
@[simp] theorem State.storeBytes_mcause (s : State) (a : Word) (w : Width) (v : Word) : (s.storeBytes a w v).mcause = s.mcause := rfl
@[simp] theorem State.storeBytes_mtval (s : State) (a : Word) (w : Width) (v : Word) : (s.storeBytes a w v).mtval = s.mtval := rfl
@[simp] theorem State.storeBytes_mem (s : State) (a : Word) (w : Width) (v : Word) : (s.storeBytes a w v).mem = Memory.writeLE s.mem a.toNat w.bytes v := rfl
@[simp] theorem State.storeBytes_vblank (s : State) (a : Word) (w : Width) (v : Word) : (s.storeBytes a w v).vblank = s.vblank := rfl
@[simp] theorem State.storeBytes_present (s : State) (a : Word) (w : Width) (v : Word) : (s.storeBytes a w v).present = s.present := rfl
@[simp] theorem State.storeBytes_kbd (s : State) (a : Word) (w : Width) (v : Word) : (s.storeBytes a w v).kbd = s.kbd := rfl
@[simp] theorem State.storeBytes_console (s : State) (a : Word) (w : Width) (v : Word) : (s.storeBytes a w v).console = s.console := rfl
@[simp] theorem State.storeBytes_phase (s : State) (a : Word) (w : Width) (v : Word) : (s.storeBytes a w v).phase = s.phase := rfl
@[simp] theorem State.storeBytes_turns (s : State) (a : Word) (w : Width) (v : Word) : (s.storeBytes a w v).turns = s.turns := rfl
@[simp] theorem State.storeBytes_keyFeed (s : State) (a : Word) (w : Width) (v : Word) : (s.storeBytes a w v).keyFeed = s.keyFeed := rfl
@[simp] theorem State.storeBytes_draws (s : State) (a : Word) (w : Width) (v : Word) : (s.storeBytes a w v).draws = s.draws := rfl

/-! ### `endBatch` -/

@[simp] theorem State.endBatch_cfg (s : State) (r : StepResult) : (s.endBatch r).cfg = s.cfg := rfl
@[simp] theorem State.endBatch_firmware (s : State) (r : StepResult) : (s.endBatch r).firmware = s.firmware := rfl
@[simp] theorem State.endBatch_regs (s : State) (r : StepResult) : (s.endBatch r).regs = s.regs := rfl
@[simp] theorem State.endBatch_pc (s : State) (r : StepResult) : (s.endBatch r).pc = s.pc := rfl
@[simp] theorem State.endBatch_cycle64 (s : State) (r : StepResult) : (s.endBatch r).cycle64 = s.cycle64 := rfl
@[simp] theorem State.endBatch_mtime (s : State) (r : StepResult) : (s.endBatch r).mtime = s.mtime := rfl
@[simp] theorem State.endBatch_mtimecmp (s : State) (r : StepResult) : (s.endBatch r).mtimecmp = s.mtimecmp := rfl
@[simp] theorem State.endBatch_priv (s : State) (r : StepResult) : (s.endBatch r).priv = s.priv := rfl
@[simp] theorem State.endBatch_wfi (s : State) (r : StepResult) : (s.endBatch r).wfi = s.wfi := rfl
@[simp] theorem State.endBatch_resvValid (s : State) (r : StepResult) : (s.endBatch r).resvValid = s.resvValid := rfl
@[simp] theorem State.endBatch_resvAddr (s : State) (r : StepResult) : (s.endBatch r).resvAddr = s.resvAddr := rfl
@[simp] theorem State.endBatch_mstatus (s : State) (r : StepResult) : (s.endBatch r).mstatus = s.mstatus := rfl
@[simp] theorem State.endBatch_mtie (s : State) (r : StepResult) : (s.endBatch r).mtie = s.mtie := rfl
@[simp] theorem State.endBatch_mtip (s : State) (r : StepResult) : (s.endBatch r).mtip = s.mtip := rfl
@[simp] theorem State.endBatch_mtvec (s : State) (r : StepResult) : (s.endBatch r).mtvec = s.mtvec := rfl
@[simp] theorem State.endBatch_mscratch (s : State) (r : StepResult) : (s.endBatch r).mscratch = s.mscratch := rfl
@[simp] theorem State.endBatch_mepc (s : State) (r : StepResult) : (s.endBatch r).mepc = s.mepc := rfl
@[simp] theorem State.endBatch_mcause (s : State) (r : StepResult) : (s.endBatch r).mcause = s.mcause := rfl
@[simp] theorem State.endBatch_mtval (s : State) (r : StepResult) : (s.endBatch r).mtval = s.mtval := rfl
@[simp] theorem State.endBatch_mem (s : State) (r : StepResult) : (s.endBatch r).mem = s.mem := rfl
@[simp] theorem State.endBatch_vblank (s : State) (r : StepResult) : (s.endBatch r).vblank = s.vblank := rfl
@[simp] theorem State.endBatch_present (s : State) (r : StepResult) : (s.endBatch r).present = s.present := rfl
@[simp] theorem State.endBatch_kbd (s : State) (r : StepResult) : (s.endBatch r).kbd = s.kbd := rfl
@[simp] theorem State.endBatch_console (s : State) (r : StepResult) : (s.endBatch r).console = s.console := rfl
@[simp] theorem State.endBatch_phase (s : State) (r : StepResult) : (s.endBatch r).phase = .ready (some r) := rfl
@[simp] theorem State.endBatch_turns (s : State) (r : StepResult) : (s.endBatch r).turns = s.turns := rfl
@[simp] theorem State.endBatch_keyFeed (s : State) (r : StepResult) : (s.endBatch r).keyFeed = s.keyFeed := rfl
@[simp] theorem State.endBatch_draws (s : State) (r : StepResult) : (s.endBatch r).draws = s.draws := rfl

/-! ### `trapEntry` -/

@[simp] theorem State.trapEntry_cfg (s : State) (c v e : Word) : (s.trapEntry c v e).cfg = s.cfg := rfl
@[simp] theorem State.trapEntry_firmware (s : State) (c v e : Word) : (s.trapEntry c v e).firmware = s.firmware := rfl
@[simp] theorem State.trapEntry_regs (s : State) (c v e : Word) : (s.trapEntry c v e).regs = s.regs := rfl
@[simp] theorem State.trapEntry_pc (s : State) (c v e : Word) : (s.trapEntry c v e).pc = s.mtvec := rfl
@[simp] theorem State.trapEntry_cycle64 (s : State) (c v e : Word) : (s.trapEntry c v e).cycle64 = s.cycle64 := rfl
@[simp] theorem State.trapEntry_mtime (s : State) (c v e : Word) : (s.trapEntry c v e).mtime = s.mtime := rfl
@[simp] theorem State.trapEntry_mtimecmp (s : State) (c v e : Word) : (s.trapEntry c v e).mtimecmp = s.mtimecmp := rfl
@[simp] theorem State.trapEntry_priv (s : State) (c v e : Word) : (s.trapEntry c v e).priv = .machine := rfl
@[simp] theorem State.trapEntry_wfi (s : State) (c v e : Word) : (s.trapEntry c v e).wfi = s.wfi := rfl
@[simp] theorem State.trapEntry_resvValid (s : State) (c v e : Word) : (s.trapEntry c v e).resvValid = s.resvValid := rfl
@[simp] theorem State.trapEntry_resvAddr (s : State) (c v e : Word) : (s.trapEntry c v e).resvAddr = s.resvAddr := rfl
@[simp] theorem State.trapEntry_mstatus (s : State) (c v e : Word) : (s.trapEntry c v e).mstatus = { mie := false, mpie := s.mstatus.mie, mpp := s.priv } := rfl
@[simp] theorem State.trapEntry_mtie (s : State) (c v e : Word) : (s.trapEntry c v e).mtie = s.mtie := rfl
@[simp] theorem State.trapEntry_mtip (s : State) (c v e : Word) : (s.trapEntry c v e).mtip = s.mtip := rfl
@[simp] theorem State.trapEntry_mtvec (s : State) (c v e : Word) : (s.trapEntry c v e).mtvec = s.mtvec := rfl
@[simp] theorem State.trapEntry_mscratch (s : State) (c v e : Word) : (s.trapEntry c v e).mscratch = s.mscratch := rfl
@[simp] theorem State.trapEntry_mepc (s : State) (c v e : Word) : (s.trapEntry c v e).mepc = alignMask e := rfl
@[simp] theorem State.trapEntry_mcause (s : State) (c v e : Word) : (s.trapEntry c v e).mcause = c := rfl
@[simp] theorem State.trapEntry_mtval (s : State) (c v e : Word) : (s.trapEntry c v e).mtval = v := rfl
@[simp] theorem State.trapEntry_mem (s : State) (c v e : Word) : (s.trapEntry c v e).mem = s.mem := rfl
@[simp] theorem State.trapEntry_vblank (s : State) (c v e : Word) : (s.trapEntry c v e).vblank = s.vblank := rfl
@[simp] theorem State.trapEntry_present (s : State) (c v e : Word) : (s.trapEntry c v e).present = s.present := rfl
@[simp] theorem State.trapEntry_kbd (s : State) (c v e : Word) : (s.trapEntry c v e).kbd = s.kbd := rfl
@[simp] theorem State.trapEntry_console (s : State) (c v e : Word) : (s.trapEntry c v e).console = s.console := rfl
@[simp] theorem State.trapEntry_phase (s : State) (c v e : Word) : (s.trapEntry c v e).phase = s.phase := rfl
@[simp] theorem State.trapEntry_turns (s : State) (c v e : Word) : (s.trapEntry c v e).turns = s.turns := rfl
@[simp] theorem State.trapEntry_keyFeed (s : State) (c v e : Word) : (s.trapEntry c v e).keyFeed = s.keyFeed := rfl
@[simp] theorem State.trapEntry_draws (s : State) (c v e : Word) : (s.trapEntry c v e).draws = s.draws := rfl

/-! ### `trapReturn` -/

@[simp] theorem State.trapReturn_cfg (s : State) : (s.trapReturn).cfg = s.cfg := rfl
@[simp] theorem State.trapReturn_firmware (s : State) : (s.trapReturn).firmware = s.firmware := rfl
@[simp] theorem State.trapReturn_regs (s : State) : (s.trapReturn).regs = s.regs := rfl
@[simp] theorem State.trapReturn_pc (s : State) : (s.trapReturn).pc = s.mepc := rfl
@[simp] theorem State.trapReturn_cycle64 (s : State) : (s.trapReturn).cycle64 = s.cycle64 := rfl
@[simp] theorem State.trapReturn_mtime (s : State) : (s.trapReturn).mtime = s.mtime := rfl
@[simp] theorem State.trapReturn_mtimecmp (s : State) : (s.trapReturn).mtimecmp = s.mtimecmp := rfl
@[simp] theorem State.trapReturn_priv (s : State) : (s.trapReturn).priv = s.mstatus.mpp := rfl
@[simp] theorem State.trapReturn_wfi (s : State) : (s.trapReturn).wfi = s.wfi := rfl
@[simp] theorem State.trapReturn_resvValid (s : State) : (s.trapReturn).resvValid = s.resvValid := rfl
@[simp] theorem State.trapReturn_resvAddr (s : State) : (s.trapReturn).resvAddr = s.resvAddr := rfl
@[simp] theorem State.trapReturn_mstatus (s : State) : (s.trapReturn).mstatus = { mie := s.mstatus.mpie, mpie := true, mpp := .user } := rfl
@[simp] theorem State.trapReturn_mtie (s : State) : (s.trapReturn).mtie = s.mtie := rfl
@[simp] theorem State.trapReturn_mtip (s : State) : (s.trapReturn).mtip = s.mtip := rfl
@[simp] theorem State.trapReturn_mtvec (s : State) : (s.trapReturn).mtvec = s.mtvec := rfl
@[simp] theorem State.trapReturn_mscratch (s : State) : (s.trapReturn).mscratch = s.mscratch := rfl
@[simp] theorem State.trapReturn_mepc (s : State) : (s.trapReturn).mepc = s.mepc := rfl
@[simp] theorem State.trapReturn_mcause (s : State) : (s.trapReturn).mcause = s.mcause := rfl
@[simp] theorem State.trapReturn_mtval (s : State) : (s.trapReturn).mtval = s.mtval := rfl
@[simp] theorem State.trapReturn_mem (s : State) : (s.trapReturn).mem = s.mem := rfl
@[simp] theorem State.trapReturn_vblank (s : State) : (s.trapReturn).vblank = s.vblank := rfl
@[simp] theorem State.trapReturn_present (s : State) : (s.trapReturn).present = s.present := rfl
@[simp] theorem State.trapReturn_kbd (s : State) : (s.trapReturn).kbd = s.kbd := rfl
@[simp] theorem State.trapReturn_console (s : State) : (s.trapReturn).console = s.console := rfl
@[simp] theorem State.trapReturn_phase (s : State) : (s.trapReturn).phase = s.phase := rfl
@[simp] theorem State.trapReturn_turns (s : State) : (s.trapReturn).turns = s.turns := rfl
@[simp] theorem State.trapReturn_keyFeed (s : State) : (s.trapReturn).keyFeed = s.keyFeed := rfl
@[simp] theorem State.trapReturn_draws (s : State) : (s.trapReturn).draws = s.draws := rfl

/-! ### `beginInstr` -/

@[simp] theorem State.beginInstr_cfg (s : State) (n : Nat) : (s.beginInstr n).cfg = s.cfg := rfl
@[simp] theorem State.beginInstr_firmware (s : State) (n : Nat) : (s.beginInstr n).firmware = s.firmware := rfl
@[simp] theorem State.beginInstr_regs (s : State) (n : Nat) : (s.beginInstr n).regs = s.regs := rfl
@[simp] theorem State.beginInstr_pc (s : State) (n : Nat) : (s.beginInstr n).pc = s.pc := rfl
@[simp] theorem State.beginInstr_cycle64 (s : State) (n : Nat) : (s.beginInstr n).cycle64 = s.cycle64 + 1 := rfl
@[simp] theorem State.beginInstr_mtime (s : State) (n : Nat) : (s.beginInstr n).mtime = s.mtime := rfl
@[simp] theorem State.beginInstr_mtimecmp (s : State) (n : Nat) : (s.beginInstr n).mtimecmp = s.mtimecmp := rfl
@[simp] theorem State.beginInstr_priv (s : State) (n : Nat) : (s.beginInstr n).priv = s.priv := rfl
@[simp] theorem State.beginInstr_wfi (s : State) (n : Nat) : (s.beginInstr n).wfi = s.wfi := rfl
@[simp] theorem State.beginInstr_resvValid (s : State) (n : Nat) : (s.beginInstr n).resvValid = s.resvValid := rfl
@[simp] theorem State.beginInstr_resvAddr (s : State) (n : Nat) : (s.beginInstr n).resvAddr = s.resvAddr := rfl
@[simp] theorem State.beginInstr_mstatus (s : State) (n : Nat) : (s.beginInstr n).mstatus = s.mstatus := rfl
@[simp] theorem State.beginInstr_mtie (s : State) (n : Nat) : (s.beginInstr n).mtie = s.mtie := rfl
@[simp] theorem State.beginInstr_mtip (s : State) (n : Nat) : (s.beginInstr n).mtip = s.mtip := rfl
@[simp] theorem State.beginInstr_mtvec (s : State) (n : Nat) : (s.beginInstr n).mtvec = s.mtvec := rfl
@[simp] theorem State.beginInstr_mscratch (s : State) (n : Nat) : (s.beginInstr n).mscratch = s.mscratch := rfl
@[simp] theorem State.beginInstr_mepc (s : State) (n : Nat) : (s.beginInstr n).mepc = s.mepc := rfl
@[simp] theorem State.beginInstr_mcause (s : State) (n : Nat) : (s.beginInstr n).mcause = s.mcause := rfl
@[simp] theorem State.beginInstr_mtval (s : State) (n : Nat) : (s.beginInstr n).mtval = s.mtval := rfl
@[simp] theorem State.beginInstr_mem (s : State) (n : Nat) : (s.beginInstr n).mem = s.mem := rfl
@[simp] theorem State.beginInstr_vblank (s : State) (n : Nat) : (s.beginInstr n).vblank = s.vblank := rfl
@[simp] theorem State.beginInstr_present (s : State) (n : Nat) : (s.beginInstr n).present = s.present := rfl
@[simp] theorem State.beginInstr_kbd (s : State) (n : Nat) : (s.beginInstr n).kbd = s.kbd := rfl
@[simp] theorem State.beginInstr_console (s : State) (n : Nat) : (s.beginInstr n).console = s.console := rfl
@[simp] theorem State.beginInstr_phase (s : State) (n : Nat) : (s.beginInstr n).phase = .running n := rfl
@[simp] theorem State.beginInstr_turns (s : State) (n : Nat) : (s.beginInstr n).turns = s.turns := rfl
@[simp] theorem State.beginInstr_keyFeed (s : State) (n : Nat) : (s.beginInstr n).keyFeed = s.keyFeed := rfl
@[simp] theorem State.beginInstr_draws (s : State) (n : Nat) : (s.beginInstr n).draws = s.draws := rfl

/-! ### `reserve` -/

@[simp] theorem State.reserve_cfg (s : State) (a : Word) : (s.reserve a).cfg = s.cfg := rfl
@[simp] theorem State.reserve_firmware (s : State) (a : Word) : (s.reserve a).firmware = s.firmware := rfl
@[simp] theorem State.reserve_regs (s : State) (a : Word) : (s.reserve a).regs = s.regs := rfl
@[simp] theorem State.reserve_pc (s : State) (a : Word) : (s.reserve a).pc = s.pc := rfl
@[simp] theorem State.reserve_cycle64 (s : State) (a : Word) : (s.reserve a).cycle64 = s.cycle64 := rfl
@[simp] theorem State.reserve_mtime (s : State) (a : Word) : (s.reserve a).mtime = s.mtime := rfl
@[simp] theorem State.reserve_mtimecmp (s : State) (a : Word) : (s.reserve a).mtimecmp = s.mtimecmp := rfl
@[simp] theorem State.reserve_priv (s : State) (a : Word) : (s.reserve a).priv = s.priv := rfl
@[simp] theorem State.reserve_wfi (s : State) (a : Word) : (s.reserve a).wfi = s.wfi := rfl
@[simp] theorem State.reserve_resvValid (s : State) (a : Word) : (s.reserve a).resvValid = true := rfl
@[simp] theorem State.reserve_resvAddr (s : State) (a : Word) : (s.reserve a).resvAddr = a := rfl
@[simp] theorem State.reserve_mstatus (s : State) (a : Word) : (s.reserve a).mstatus = s.mstatus := rfl
@[simp] theorem State.reserve_mtie (s : State) (a : Word) : (s.reserve a).mtie = s.mtie := rfl
@[simp] theorem State.reserve_mtip (s : State) (a : Word) : (s.reserve a).mtip = s.mtip := rfl
@[simp] theorem State.reserve_mtvec (s : State) (a : Word) : (s.reserve a).mtvec = s.mtvec := rfl
@[simp] theorem State.reserve_mscratch (s : State) (a : Word) : (s.reserve a).mscratch = s.mscratch := rfl
@[simp] theorem State.reserve_mepc (s : State) (a : Word) : (s.reserve a).mepc = s.mepc := rfl
@[simp] theorem State.reserve_mcause (s : State) (a : Word) : (s.reserve a).mcause = s.mcause := rfl
@[simp] theorem State.reserve_mtval (s : State) (a : Word) : (s.reserve a).mtval = s.mtval := rfl
@[simp] theorem State.reserve_mem (s : State) (a : Word) : (s.reserve a).mem = s.mem := rfl
@[simp] theorem State.reserve_vblank (s : State) (a : Word) : (s.reserve a).vblank = s.vblank := rfl
@[simp] theorem State.reserve_present (s : State) (a : Word) : (s.reserve a).present = s.present := rfl
@[simp] theorem State.reserve_kbd (s : State) (a : Word) : (s.reserve a).kbd = s.kbd := rfl
@[simp] theorem State.reserve_console (s : State) (a : Word) : (s.reserve a).console = s.console := rfl
@[simp] theorem State.reserve_phase (s : State) (a : Word) : (s.reserve a).phase = s.phase := rfl
@[simp] theorem State.reserve_turns (s : State) (a : Word) : (s.reserve a).turns = s.turns := rfl
@[simp] theorem State.reserve_keyFeed (s : State) (a : Word) : (s.reserve a).keyFeed = s.keyFeed := rfl
@[simp] theorem State.reserve_draws (s : State) (a : Word) : (s.reserve a).draws = s.draws := rfl

/-! ### `clearReservation` -/

@[simp] theorem State.clearReservation_cfg (s : State) : (s.clearReservation).cfg = s.cfg := rfl
@[simp] theorem State.clearReservation_firmware (s : State) : (s.clearReservation).firmware = s.firmware := rfl
@[simp] theorem State.clearReservation_regs (s : State) : (s.clearReservation).regs = s.regs := rfl
@[simp] theorem State.clearReservation_pc (s : State) : (s.clearReservation).pc = s.pc := rfl
@[simp] theorem State.clearReservation_cycle64 (s : State) : (s.clearReservation).cycle64 = s.cycle64 := rfl
@[simp] theorem State.clearReservation_mtime (s : State) : (s.clearReservation).mtime = s.mtime := rfl
@[simp] theorem State.clearReservation_mtimecmp (s : State) : (s.clearReservation).mtimecmp = s.mtimecmp := rfl
@[simp] theorem State.clearReservation_priv (s : State) : (s.clearReservation).priv = s.priv := rfl
@[simp] theorem State.clearReservation_wfi (s : State) : (s.clearReservation).wfi = s.wfi := rfl
@[simp] theorem State.clearReservation_resvValid (s : State) : (s.clearReservation).resvValid = false := rfl
@[simp] theorem State.clearReservation_resvAddr (s : State) : (s.clearReservation).resvAddr = s.resvAddr := rfl
@[simp] theorem State.clearReservation_mstatus (s : State) : (s.clearReservation).mstatus = s.mstatus := rfl
@[simp] theorem State.clearReservation_mtie (s : State) : (s.clearReservation).mtie = s.mtie := rfl
@[simp] theorem State.clearReservation_mtip (s : State) : (s.clearReservation).mtip = s.mtip := rfl
@[simp] theorem State.clearReservation_mtvec (s : State) : (s.clearReservation).mtvec = s.mtvec := rfl
@[simp] theorem State.clearReservation_mscratch (s : State) : (s.clearReservation).mscratch = s.mscratch := rfl
@[simp] theorem State.clearReservation_mepc (s : State) : (s.clearReservation).mepc = s.mepc := rfl
@[simp] theorem State.clearReservation_mcause (s : State) : (s.clearReservation).mcause = s.mcause := rfl
@[simp] theorem State.clearReservation_mtval (s : State) : (s.clearReservation).mtval = s.mtval := rfl
@[simp] theorem State.clearReservation_mem (s : State) : (s.clearReservation).mem = s.mem := rfl
@[simp] theorem State.clearReservation_vblank (s : State) : (s.clearReservation).vblank = s.vblank := rfl
@[simp] theorem State.clearReservation_present (s : State) : (s.clearReservation).present = s.present := rfl
@[simp] theorem State.clearReservation_kbd (s : State) : (s.clearReservation).kbd = s.kbd := rfl
@[simp] theorem State.clearReservation_console (s : State) : (s.clearReservation).console = s.console := rfl
@[simp] theorem State.clearReservation_phase (s : State) : (s.clearReservation).phase = s.phase := rfl
@[simp] theorem State.clearReservation_turns (s : State) : (s.clearReservation).turns = s.turns := rfl
@[simp] theorem State.clearReservation_keyFeed (s : State) : (s.clearReservation).keyFeed = s.keyFeed := rfl
@[simp] theorem State.clearReservation_draws (s : State) : (s.clearReservation).draws = s.draws := rfl

/-! ### `updateTimer` -/

@[simp] theorem State.updateTimer_cfg (s : State) (e : Word) : (s.updateTimer e).cfg = s.cfg := rfl
@[simp] theorem State.updateTimer_firmware (s : State) (e : Word) : (s.updateTimer e).firmware = s.firmware := rfl
@[simp] theorem State.updateTimer_regs (s : State) (e : Word) : (s.updateTimer e).regs = s.regs := rfl
@[simp] theorem State.updateTimer_pc (s : State) (e : Word) : (s.updateTimer e).pc = s.pc := rfl
@[simp] theorem State.updateTimer_cycle64 (s : State) (e : Word) : (s.updateTimer e).cycle64 = s.cycle64 := rfl
@[simp] theorem State.updateTimer_mtime (s : State) (e : Word) : (s.updateTimer e).mtime = s.mtime + e.setWidth 64 := rfl
@[simp] theorem State.updateTimer_mtimecmp (s : State) (e : Word) : (s.updateTimer e).mtimecmp = s.mtimecmp := rfl
@[simp] theorem State.updateTimer_priv (s : State) (e : Word) : (s.updateTimer e).priv = s.priv := rfl
@[simp] theorem State.updateTimer_wfi (s : State) (e : Word) : (s.updateTimer e).wfi = s.wfi := rfl
@[simp] theorem State.updateTimer_resvValid (s : State) (e : Word) : (s.updateTimer e).resvValid = s.resvValid := rfl
@[simp] theorem State.updateTimer_resvAddr (s : State) (e : Word) : (s.updateTimer e).resvAddr = s.resvAddr := rfl
@[simp] theorem State.updateTimer_mstatus (s : State) (e : Word) : (s.updateTimer e).mstatus = s.mstatus := rfl
@[simp] theorem State.updateTimer_mtie (s : State) (e : Word) : (s.updateTimer e).mtie = s.mtie := rfl
@[simp] theorem State.updateTimer_mtip (s : State) (e : Word) : (s.updateTimer e).mtip = decide (s.mtimecmp.toNat ≤ (s.mtime + e.setWidth 64).toNat) := rfl
@[simp] theorem State.updateTimer_mtvec (s : State) (e : Word) : (s.updateTimer e).mtvec = s.mtvec := rfl
@[simp] theorem State.updateTimer_mscratch (s : State) (e : Word) : (s.updateTimer e).mscratch = s.mscratch := rfl
@[simp] theorem State.updateTimer_mepc (s : State) (e : Word) : (s.updateTimer e).mepc = s.mepc := rfl
@[simp] theorem State.updateTimer_mcause (s : State) (e : Word) : (s.updateTimer e).mcause = s.mcause := rfl
@[simp] theorem State.updateTimer_mtval (s : State) (e : Word) : (s.updateTimer e).mtval = s.mtval := rfl
@[simp] theorem State.updateTimer_mem (s : State) (e : Word) : (s.updateTimer e).mem = s.mem := rfl
@[simp] theorem State.updateTimer_vblank (s : State) (e : Word) : (s.updateTimer e).vblank = s.vblank := rfl
@[simp] theorem State.updateTimer_present (s : State) (e : Word) : (s.updateTimer e).present = s.present := rfl
@[simp] theorem State.updateTimer_kbd (s : State) (e : Word) : (s.updateTimer e).kbd = s.kbd := rfl
@[simp] theorem State.updateTimer_console (s : State) (e : Word) : (s.updateTimer e).console = s.console := rfl
@[simp] theorem State.updateTimer_phase (s : State) (e : Word) : (s.updateTimer e).phase = s.phase := rfl
@[simp] theorem State.updateTimer_turns (s : State) (e : Word) : (s.updateTimer e).turns = s.turns := rfl
@[simp] theorem State.updateTimer_keyFeed (s : State) (e : Word) : (s.updateTimer e).keyFeed = s.keyFeed := rfl
@[simp] theorem State.updateTimer_draws (s : State) (e : Word) : (s.updateTimer e).draws = s.draws := rfl

/-! ### `setX` -/

@[simp] theorem State.setX_cfg (s : State) (i : Reg) (v : Word) : (s.setX i v).cfg = s.cfg := by unfold State.setX; split <;> rfl
@[simp] theorem State.setX_firmware (s : State) (i : Reg) (v : Word) : (s.setX i v).firmware = s.firmware := by unfold State.setX; split <;> rfl
@[simp] theorem State.setX_pc (s : State) (i : Reg) (v : Word) : (s.setX i v).pc = s.pc := by unfold State.setX; split <;> rfl
@[simp] theorem State.setX_cycle64 (s : State) (i : Reg) (v : Word) : (s.setX i v).cycle64 = s.cycle64 := by unfold State.setX; split <;> rfl
@[simp] theorem State.setX_mtime (s : State) (i : Reg) (v : Word) : (s.setX i v).mtime = s.mtime := by unfold State.setX; split <;> rfl
@[simp] theorem State.setX_mtimecmp (s : State) (i : Reg) (v : Word) : (s.setX i v).mtimecmp = s.mtimecmp := by unfold State.setX; split <;> rfl
@[simp] theorem State.setX_priv (s : State) (i : Reg) (v : Word) : (s.setX i v).priv = s.priv := by unfold State.setX; split <;> rfl
@[simp] theorem State.setX_wfi (s : State) (i : Reg) (v : Word) : (s.setX i v).wfi = s.wfi := by unfold State.setX; split <;> rfl
@[simp] theorem State.setX_resvValid (s : State) (i : Reg) (v : Word) : (s.setX i v).resvValid = s.resvValid := by unfold State.setX; split <;> rfl
@[simp] theorem State.setX_resvAddr (s : State) (i : Reg) (v : Word) : (s.setX i v).resvAddr = s.resvAddr := by unfold State.setX; split <;> rfl
@[simp] theorem State.setX_mstatus (s : State) (i : Reg) (v : Word) : (s.setX i v).mstatus = s.mstatus := by unfold State.setX; split <;> rfl
@[simp] theorem State.setX_mtie (s : State) (i : Reg) (v : Word) : (s.setX i v).mtie = s.mtie := by unfold State.setX; split <;> rfl
@[simp] theorem State.setX_mtip (s : State) (i : Reg) (v : Word) : (s.setX i v).mtip = s.mtip := by unfold State.setX; split <;> rfl
@[simp] theorem State.setX_mtvec (s : State) (i : Reg) (v : Word) : (s.setX i v).mtvec = s.mtvec := by unfold State.setX; split <;> rfl
@[simp] theorem State.setX_mscratch (s : State) (i : Reg) (v : Word) : (s.setX i v).mscratch = s.mscratch := by unfold State.setX; split <;> rfl
@[simp] theorem State.setX_mepc (s : State) (i : Reg) (v : Word) : (s.setX i v).mepc = s.mepc := by unfold State.setX; split <;> rfl
@[simp] theorem State.setX_mcause (s : State) (i : Reg) (v : Word) : (s.setX i v).mcause = s.mcause := by unfold State.setX; split <;> rfl
@[simp] theorem State.setX_mtval (s : State) (i : Reg) (v : Word) : (s.setX i v).mtval = s.mtval := by unfold State.setX; split <;> rfl
@[simp] theorem State.setX_mem (s : State) (i : Reg) (v : Word) : (s.setX i v).mem = s.mem := by unfold State.setX; split <;> rfl
@[simp] theorem State.setX_vblank (s : State) (i : Reg) (v : Word) : (s.setX i v).vblank = s.vblank := by unfold State.setX; split <;> rfl
@[simp] theorem State.setX_present (s : State) (i : Reg) (v : Word) : (s.setX i v).present = s.present := by unfold State.setX; split <;> rfl
@[simp] theorem State.setX_kbd (s : State) (i : Reg) (v : Word) : (s.setX i v).kbd = s.kbd := by unfold State.setX; split <;> rfl
@[simp] theorem State.setX_console (s : State) (i : Reg) (v : Word) : (s.setX i v).console = s.console := by unfold State.setX; split <;> rfl
@[simp] theorem State.setX_phase (s : State) (i : Reg) (v : Word) : (s.setX i v).phase = s.phase := by unfold State.setX; split <;> rfl
@[simp] theorem State.setX_turns (s : State) (i : Reg) (v : Word) : (s.setX i v).turns = s.turns := by unfold State.setX; split <;> rfl
@[simp] theorem State.setX_keyFeed (s : State) (i : Reg) (v : Word) : (s.setX i v).keyFeed = s.keyFeed := by unfold State.setX; split <;> rfl
@[simp] theorem State.setX_draws (s : State) (i : Reg) (v : Word) : (s.setX i v).draws = s.draws := by unfold State.setX; split <;> rfl

/-! ### `retire` -/

@[simp] theorem State.retire_cfg (s : State) (i : Reg) (v : Word) : (s.retire i v).cfg = s.cfg := by simp [State.retire]
@[simp] theorem State.retire_firmware (s : State) (i : Reg) (v : Word) : (s.retire i v).firmware = s.firmware := by simp [State.retire]
@[simp] theorem State.retire_regs (s : State) (i : Reg) (v : Word) : (s.retire i v).regs = (s.setX i v).regs := by simp [State.retire]
@[simp] theorem State.retire_pc (s : State) (i : Reg) (v : Word) : (s.retire i v).pc = s.pc + 4 := by simp [State.retire]
@[simp] theorem State.retire_cycle64 (s : State) (i : Reg) (v : Word) : (s.retire i v).cycle64 = s.cycle64 := by simp [State.retire]
@[simp] theorem State.retire_mtime (s : State) (i : Reg) (v : Word) : (s.retire i v).mtime = s.mtime := by simp [State.retire]
@[simp] theorem State.retire_mtimecmp (s : State) (i : Reg) (v : Word) : (s.retire i v).mtimecmp = s.mtimecmp := by simp [State.retire]
@[simp] theorem State.retire_priv (s : State) (i : Reg) (v : Word) : (s.retire i v).priv = s.priv := by simp [State.retire]
@[simp] theorem State.retire_wfi (s : State) (i : Reg) (v : Word) : (s.retire i v).wfi = s.wfi := by simp [State.retire]
@[simp] theorem State.retire_resvValid (s : State) (i : Reg) (v : Word) : (s.retire i v).resvValid = s.resvValid := by simp [State.retire]
@[simp] theorem State.retire_resvAddr (s : State) (i : Reg) (v : Word) : (s.retire i v).resvAddr = s.resvAddr := by simp [State.retire]
@[simp] theorem State.retire_mstatus (s : State) (i : Reg) (v : Word) : (s.retire i v).mstatus = s.mstatus := by simp [State.retire]
@[simp] theorem State.retire_mtie (s : State) (i : Reg) (v : Word) : (s.retire i v).mtie = s.mtie := by simp [State.retire]
@[simp] theorem State.retire_mtip (s : State) (i : Reg) (v : Word) : (s.retire i v).mtip = s.mtip := by simp [State.retire]
@[simp] theorem State.retire_mtvec (s : State) (i : Reg) (v : Word) : (s.retire i v).mtvec = s.mtvec := by simp [State.retire]
@[simp] theorem State.retire_mscratch (s : State) (i : Reg) (v : Word) : (s.retire i v).mscratch = s.mscratch := by simp [State.retire]
@[simp] theorem State.retire_mepc (s : State) (i : Reg) (v : Word) : (s.retire i v).mepc = s.mepc := by simp [State.retire]
@[simp] theorem State.retire_mcause (s : State) (i : Reg) (v : Word) : (s.retire i v).mcause = s.mcause := by simp [State.retire]
@[simp] theorem State.retire_mtval (s : State) (i : Reg) (v : Word) : (s.retire i v).mtval = s.mtval := by simp [State.retire]
@[simp] theorem State.retire_mem (s : State) (i : Reg) (v : Word) : (s.retire i v).mem = s.mem := by simp [State.retire]
@[simp] theorem State.retire_vblank (s : State) (i : Reg) (v : Word) : (s.retire i v).vblank = s.vblank := by simp [State.retire]
@[simp] theorem State.retire_present (s : State) (i : Reg) (v : Word) : (s.retire i v).present = s.present := by simp [State.retire]
@[simp] theorem State.retire_kbd (s : State) (i : Reg) (v : Word) : (s.retire i v).kbd = s.kbd := by simp [State.retire]
@[simp] theorem State.retire_console (s : State) (i : Reg) (v : Word) : (s.retire i v).console = s.console := by simp [State.retire]
@[simp] theorem State.retire_phase (s : State) (i : Reg) (v : Word) : (s.retire i v).phase = s.phase := by simp [State.retire]
@[simp] theorem State.retire_turns (s : State) (i : Reg) (v : Word) : (s.retire i v).turns = s.turns := by simp [State.retire]
@[simp] theorem State.retire_keyFeed (s : State) (i : Reg) (v : Word) : (s.retire i v).keyFeed = s.keyFeed := by simp [State.retire]
@[simp] theorem State.retire_draws (s : State) (i : Reg) (v : Word) : (s.retire i v).draws = s.draws := by simp [State.retire]

/-! ### `pollKeyboard` -/

@[simp] theorem State.pollKeyboard_cfg (s : State) : (s.pollKeyboard).cfg = s.cfg := by unfold State.pollKeyboard; split <;> rfl
@[simp] theorem State.pollKeyboard_firmware (s : State) : (s.pollKeyboard).firmware = s.firmware := by unfold State.pollKeyboard; split <;> rfl
@[simp] theorem State.pollKeyboard_regs (s : State) : (s.pollKeyboard).regs = s.regs := by unfold State.pollKeyboard; split <;> rfl
@[simp] theorem State.pollKeyboard_pc (s : State) : (s.pollKeyboard).pc = s.pc := by unfold State.pollKeyboard; split <;> rfl
@[simp] theorem State.pollKeyboard_cycle64 (s : State) : (s.pollKeyboard).cycle64 = s.cycle64 := by unfold State.pollKeyboard; split <;> rfl
@[simp] theorem State.pollKeyboard_mtime (s : State) : (s.pollKeyboard).mtime = s.mtime := by unfold State.pollKeyboard; split <;> rfl
@[simp] theorem State.pollKeyboard_mtimecmp (s : State) : (s.pollKeyboard).mtimecmp = s.mtimecmp := by unfold State.pollKeyboard; split <;> rfl
@[simp] theorem State.pollKeyboard_priv (s : State) : (s.pollKeyboard).priv = s.priv := by unfold State.pollKeyboard; split <;> rfl
@[simp] theorem State.pollKeyboard_wfi (s : State) : (s.pollKeyboard).wfi = s.wfi := by unfold State.pollKeyboard; split <;> rfl
@[simp] theorem State.pollKeyboard_resvValid (s : State) : (s.pollKeyboard).resvValid = s.resvValid := by unfold State.pollKeyboard; split <;> rfl
@[simp] theorem State.pollKeyboard_resvAddr (s : State) : (s.pollKeyboard).resvAddr = s.resvAddr := by unfold State.pollKeyboard; split <;> rfl
@[simp] theorem State.pollKeyboard_mstatus (s : State) : (s.pollKeyboard).mstatus = s.mstatus := by unfold State.pollKeyboard; split <;> rfl
@[simp] theorem State.pollKeyboard_mtie (s : State) : (s.pollKeyboard).mtie = s.mtie := by unfold State.pollKeyboard; split <;> rfl
@[simp] theorem State.pollKeyboard_mtip (s : State) : (s.pollKeyboard).mtip = s.mtip := by unfold State.pollKeyboard; split <;> rfl
@[simp] theorem State.pollKeyboard_mtvec (s : State) : (s.pollKeyboard).mtvec = s.mtvec := by unfold State.pollKeyboard; split <;> rfl
@[simp] theorem State.pollKeyboard_mscratch (s : State) : (s.pollKeyboard).mscratch = s.mscratch := by unfold State.pollKeyboard; split <;> rfl
@[simp] theorem State.pollKeyboard_mepc (s : State) : (s.pollKeyboard).mepc = s.mepc := by unfold State.pollKeyboard; split <;> rfl
@[simp] theorem State.pollKeyboard_mcause (s : State) : (s.pollKeyboard).mcause = s.mcause := by unfold State.pollKeyboard; split <;> rfl
@[simp] theorem State.pollKeyboard_mtval (s : State) : (s.pollKeyboard).mtval = s.mtval := by unfold State.pollKeyboard; split <;> rfl
@[simp] theorem State.pollKeyboard_mem (s : State) : (s.pollKeyboard).mem = s.mem := by unfold State.pollKeyboard; split <;> rfl
@[simp] theorem State.pollKeyboard_vblank (s : State) : (s.pollKeyboard).vblank = s.vblank := by unfold State.pollKeyboard; split <;> rfl
@[simp] theorem State.pollKeyboard_present (s : State) : (s.pollKeyboard).present = s.present := by unfold State.pollKeyboard; split <;> rfl
@[simp] theorem State.pollKeyboard_console (s : State) : (s.pollKeyboard).console = s.console := by unfold State.pollKeyboard; split <;> rfl
@[simp] theorem State.pollKeyboard_phase (s : State) : (s.pollKeyboard).phase = s.phase := by unfold State.pollKeyboard; split <;> rfl
@[simp] theorem State.pollKeyboard_turns (s : State) : (s.pollKeyboard).turns = s.turns := by unfold State.pollKeyboard; split <;> rfl

/-! ### `dropTurn` -/

@[simp] theorem State.dropTurn_cfg (s : State) : (s.dropTurn).cfg = s.cfg := by unfold State.dropTurn; split <;> rfl
@[simp] theorem State.dropTurn_firmware (s : State) : (s.dropTurn).firmware = s.firmware := by unfold State.dropTurn; split <;> rfl
@[simp] theorem State.dropTurn_regs (s : State) : (s.dropTurn).regs = s.regs := by unfold State.dropTurn; split <;> rfl
@[simp] theorem State.dropTurn_pc (s : State) : (s.dropTurn).pc = s.pc := by unfold State.dropTurn; split <;> rfl
@[simp] theorem State.dropTurn_cycle64 (s : State) : (s.dropTurn).cycle64 = s.cycle64 := by unfold State.dropTurn; split <;> rfl
@[simp] theorem State.dropTurn_mtime (s : State) : (s.dropTurn).mtime = s.mtime := by unfold State.dropTurn; split <;> rfl
@[simp] theorem State.dropTurn_mtimecmp (s : State) : (s.dropTurn).mtimecmp = s.mtimecmp := by unfold State.dropTurn; split <;> rfl
@[simp] theorem State.dropTurn_priv (s : State) : (s.dropTurn).priv = s.priv := by unfold State.dropTurn; split <;> rfl
@[simp] theorem State.dropTurn_wfi (s : State) : (s.dropTurn).wfi = s.wfi := by unfold State.dropTurn; split <;> rfl
@[simp] theorem State.dropTurn_resvValid (s : State) : (s.dropTurn).resvValid = s.resvValid := by unfold State.dropTurn; split <;> rfl
@[simp] theorem State.dropTurn_resvAddr (s : State) : (s.dropTurn).resvAddr = s.resvAddr := by unfold State.dropTurn; split <;> rfl
@[simp] theorem State.dropTurn_mstatus (s : State) : (s.dropTurn).mstatus = s.mstatus := by unfold State.dropTurn; split <;> rfl
@[simp] theorem State.dropTurn_mtie (s : State) : (s.dropTurn).mtie = s.mtie := by unfold State.dropTurn; split <;> rfl
@[simp] theorem State.dropTurn_mtip (s : State) : (s.dropTurn).mtip = s.mtip := by unfold State.dropTurn; split <;> rfl
@[simp] theorem State.dropTurn_mtvec (s : State) : (s.dropTurn).mtvec = s.mtvec := by unfold State.dropTurn; split <;> rfl
@[simp] theorem State.dropTurn_mscratch (s : State) : (s.dropTurn).mscratch = s.mscratch := by unfold State.dropTurn; split <;> rfl
@[simp] theorem State.dropTurn_mepc (s : State) : (s.dropTurn).mepc = s.mepc := by unfold State.dropTurn; split <;> rfl
@[simp] theorem State.dropTurn_mcause (s : State) : (s.dropTurn).mcause = s.mcause := by unfold State.dropTurn; split <;> rfl
@[simp] theorem State.dropTurn_mtval (s : State) : (s.dropTurn).mtval = s.mtval := by unfold State.dropTurn; split <;> rfl
@[simp] theorem State.dropTurn_mem (s : State) : (s.dropTurn).mem = s.mem := by unfold State.dropTurn; split <;> rfl
@[simp] theorem State.dropTurn_vblank (s : State) : (s.dropTurn).vblank = s.vblank := by unfold State.dropTurn; split <;> rfl
@[simp] theorem State.dropTurn_present (s : State) : (s.dropTurn).present = s.present := by unfold State.dropTurn; split <;> rfl
@[simp] theorem State.dropTurn_kbd (s : State) : (s.dropTurn).kbd = s.kbd := by unfold State.dropTurn; split <;> rfl
@[simp] theorem State.dropTurn_console (s : State) : (s.dropTurn).console = s.console := by unfold State.dropTurn; split <;> rfl
@[simp] theorem State.dropTurn_phase (s : State) : (s.dropTurn).phase = s.phase := by unfold State.dropTurn; split <;> rfl
@[simp] theorem State.dropTurn_keyFeed (s : State) : (s.dropTurn).keyFeed = s.keyFeed := by unfold State.dropTurn; split <;> rfl

/-! ### `hostVblank` -/

@[simp] theorem State.hostVblank_cfg (s : State) (b : Bool) : (s.hostVblank b).cfg = s.cfg := by unfold State.hostVblank; split <;> rfl
@[simp] theorem State.hostVblank_firmware (s : State) (b : Bool) : (s.hostVblank b).firmware = s.firmware := by unfold State.hostVblank; split <;> rfl
@[simp] theorem State.hostVblank_regs (s : State) (b : Bool) : (s.hostVblank b).regs = s.regs := by unfold State.hostVblank; split <;> rfl
@[simp] theorem State.hostVblank_pc (s : State) (b : Bool) : (s.hostVblank b).pc = s.pc := by unfold State.hostVblank; split <;> rfl
@[simp] theorem State.hostVblank_cycle64 (s : State) (b : Bool) : (s.hostVblank b).cycle64 = s.cycle64 := by unfold State.hostVblank; split <;> rfl
@[simp] theorem State.hostVblank_mtime (s : State) (b : Bool) : (s.hostVblank b).mtime = s.mtime := by unfold State.hostVblank; split <;> rfl
@[simp] theorem State.hostVblank_mtimecmp (s : State) (b : Bool) : (s.hostVblank b).mtimecmp = s.mtimecmp := by unfold State.hostVblank; split <;> rfl
@[simp] theorem State.hostVblank_priv (s : State) (b : Bool) : (s.hostVblank b).priv = s.priv := by unfold State.hostVblank; split <;> rfl
@[simp] theorem State.hostVblank_wfi (s : State) (b : Bool) : (s.hostVblank b).wfi = s.wfi := by unfold State.hostVblank; split <;> rfl
@[simp] theorem State.hostVblank_resvValid (s : State) (b : Bool) : (s.hostVblank b).resvValid = s.resvValid := by unfold State.hostVblank; split <;> rfl
@[simp] theorem State.hostVblank_resvAddr (s : State) (b : Bool) : (s.hostVblank b).resvAddr = s.resvAddr := by unfold State.hostVblank; split <;> rfl
@[simp] theorem State.hostVblank_mstatus (s : State) (b : Bool) : (s.hostVblank b).mstatus = s.mstatus := by unfold State.hostVblank; split <;> rfl
@[simp] theorem State.hostVblank_mtie (s : State) (b : Bool) : (s.hostVblank b).mtie = s.mtie := by unfold State.hostVblank; split <;> rfl
@[simp] theorem State.hostVblank_mtip (s : State) (b : Bool) : (s.hostVblank b).mtip = s.mtip := by unfold State.hostVblank; split <;> rfl
@[simp] theorem State.hostVblank_mtvec (s : State) (b : Bool) : (s.hostVblank b).mtvec = s.mtvec := by unfold State.hostVblank; split <;> rfl
@[simp] theorem State.hostVblank_mscratch (s : State) (b : Bool) : (s.hostVblank b).mscratch = s.mscratch := by unfold State.hostVblank; split <;> rfl
@[simp] theorem State.hostVblank_mepc (s : State) (b : Bool) : (s.hostVblank b).mepc = s.mepc := by unfold State.hostVblank; split <;> rfl
@[simp] theorem State.hostVblank_mcause (s : State) (b : Bool) : (s.hostVblank b).mcause = s.mcause := by unfold State.hostVblank; split <;> rfl
@[simp] theorem State.hostVblank_mtval (s : State) (b : Bool) : (s.hostVblank b).mtval = s.mtval := by unfold State.hostVblank; split <;> rfl
@[simp] theorem State.hostVblank_mem (s : State) (b : Bool) : (s.hostVblank b).mem = s.mem := by unfold State.hostVblank; split <;> rfl
@[simp] theorem State.hostVblank_present (s : State) (b : Bool) : (s.hostVblank b).present = s.present := by unfold State.hostVblank; split <;> rfl
@[simp] theorem State.hostVblank_kbd (s : State) (b : Bool) : (s.hostVblank b).kbd = s.kbd := by unfold State.hostVblank; split <;> rfl
@[simp] theorem State.hostVblank_console (s : State) (b : Bool) : (s.hostVblank b).console = s.console := by unfold State.hostVblank; split <;> rfl
@[simp] theorem State.hostVblank_phase (s : State) (b : Bool) : (s.hostVblank b).phase = s.phase := by unfold State.hostVblank; split <;> rfl
@[simp] theorem State.hostVblank_turns (s : State) (b : Bool) : (s.hostVblank b).turns = s.turns := by unfold State.hostVblank; split <;> rfl
@[simp] theorem State.hostVblank_keyFeed (s : State) (b : Bool) : (s.hostVblank b).keyFeed = s.keyFeed := by unfold State.hostVblank; split <;> rfl
@[simp] theorem State.hostVblank_draws (s : State) (b : Bool) : (s.hostVblank b).draws = s.draws := by unfold State.hostVblank; split <;> rfl

/-! ### `releaseWait` -/

@[simp] theorem State.releaseWait_cfg (s : State) : (s.releaseWait).cfg = s.cfg := by unfold State.releaseWait; split <;> rfl
@[simp] theorem State.releaseWait_firmware (s : State) : (s.releaseWait).firmware = s.firmware := by unfold State.releaseWait; split <;> rfl
@[simp] theorem State.releaseWait_regs (s : State) : (s.releaseWait).regs = s.regs := by unfold State.releaseWait; split <;> rfl
@[simp] theorem State.releaseWait_pc (s : State) : (s.releaseWait).pc = s.pc := by unfold State.releaseWait; split <;> rfl
@[simp] theorem State.releaseWait_cycle64 (s : State) : (s.releaseWait).cycle64 = s.cycle64 := by unfold State.releaseWait; split <;> rfl
@[simp] theorem State.releaseWait_mtime (s : State) : (s.releaseWait).mtime = s.mtime := by unfold State.releaseWait; split <;> rfl
@[simp] theorem State.releaseWait_mtimecmp (s : State) : (s.releaseWait).mtimecmp = s.mtimecmp := by unfold State.releaseWait; split <;> rfl
@[simp] theorem State.releaseWait_priv (s : State) : (s.releaseWait).priv = s.priv := by unfold State.releaseWait; split <;> rfl
@[simp] theorem State.releaseWait_resvValid (s : State) : (s.releaseWait).resvValid = s.resvValid := by unfold State.releaseWait; split <;> rfl
@[simp] theorem State.releaseWait_resvAddr (s : State) : (s.releaseWait).resvAddr = s.resvAddr := by unfold State.releaseWait; split <;> rfl
@[simp] theorem State.releaseWait_mstatus (s : State) : (s.releaseWait).mstatus = s.mstatus := by unfold State.releaseWait; split <;> rfl
@[simp] theorem State.releaseWait_mtie (s : State) : (s.releaseWait).mtie = s.mtie := by unfold State.releaseWait; split <;> rfl
@[simp] theorem State.releaseWait_mtip (s : State) : (s.releaseWait).mtip = s.mtip := by unfold State.releaseWait; split <;> rfl
@[simp] theorem State.releaseWait_mtvec (s : State) : (s.releaseWait).mtvec = s.mtvec := by unfold State.releaseWait; split <;> rfl
@[simp] theorem State.releaseWait_mscratch (s : State) : (s.releaseWait).mscratch = s.mscratch := by unfold State.releaseWait; split <;> rfl
@[simp] theorem State.releaseWait_mepc (s : State) : (s.releaseWait).mepc = s.mepc := by unfold State.releaseWait; split <;> rfl
@[simp] theorem State.releaseWait_mcause (s : State) : (s.releaseWait).mcause = s.mcause := by unfold State.releaseWait; split <;> rfl
@[simp] theorem State.releaseWait_mtval (s : State) : (s.releaseWait).mtval = s.mtval := by unfold State.releaseWait; split <;> rfl
@[simp] theorem State.releaseWait_mem (s : State) : (s.releaseWait).mem = s.mem := by unfold State.releaseWait; split <;> rfl
@[simp] theorem State.releaseWait_vblank (s : State) : (s.releaseWait).vblank = s.vblank := by unfold State.releaseWait; split <;> rfl
@[simp] theorem State.releaseWait_present (s : State) : (s.releaseWait).present = s.present := by unfold State.releaseWait; split <;> rfl
@[simp] theorem State.releaseWait_kbd (s : State) : (s.releaseWait).kbd = s.kbd := by unfold State.releaseWait; split <;> rfl
@[simp] theorem State.releaseWait_console (s : State) : (s.releaseWait).console = s.console := by unfold State.releaseWait; split <;> rfl
@[simp] theorem State.releaseWait_phase (s : State) : (s.releaseWait).phase = s.phase := by unfold State.releaseWait; split <;> rfl
@[simp] theorem State.releaseWait_turns (s : State) : (s.releaseWait).turns = s.turns := by unfold State.releaseWait; split <;> rfl
@[simp] theorem State.releaseWait_keyFeed (s : State) : (s.releaseWait).keyFeed = s.keyFeed := by unfold State.releaseWait; split <;> rfl
@[simp] theorem State.releaseWait_draws (s : State) : (s.releaseWait).draws = s.draws := by unfold State.releaseWait; split <;> rfl

end Sys2Proof.Machine
end

