-- ==== Sys2Proof/Laws/Csr.lean ====
section
/-! SUPPORT. Which CSR a number names, and the checks of a CSR access. -/

namespace Sys2Proof.Machine

/-- The two ways an if-then-else has a value. -/
theorem ite_eq_cases {α : Type} {p : Prop} [Decidable p] {a b r : α} (h : (if p then a else b) = r) :
    (p ∧ a = r) ∨ (¬p ∧ b = r) := by
  split at h
  · exact .inl ⟨‹_›, h⟩
  · exact .inr ⟨‹_›, h⟩

/-- What the name of a CSR says about its number. -/
theorem csrNamed_number {c : Config} {n : CsrNum} {r : Csr} : csrNamed c n = r →
    match r with
    | .mstatus => n = 0x300
    | .misa => n = 0x301
    | .mie => n = 0x304
    | .mtvec => n = 0x305
    | .mscratch => n = 0x340
    | .mepc => n = 0x341
    | .mcause => n = 0x342
    | .mtval => n = 0x343
    | .mip => n = 0x344
    | .cycle => n = 0xC00
    | .cycleh => n = 0xC80
    | .mvendorid => n = 0xF11
    | .marchid => n = 0xF12
    | .mimpid => n = 0xF13
    | .mhartid => n = 0xF14
    | .dbgDec => n = c.csrDbgDec
    | .dbgHex => n = c.csrDbgHex
    | .dbgStr => n = c.csrDbgStr
    | .dbgChar => n = c.csrDbgChar
    | .dbgGetc => n = c.csrDbgGetc
    | .other => n ∉ Config.implementedCsrs ∧ n ∉ c.diagnosticCsrs := by
  intro h
  unfold csrNamed at h
  iterate 20
    replace h := ite_eq_cases h
    rcases h with ⟨e, rfl⟩ | ⟨e, h⟩
    · exact e
  subst h
  simp only [Config.implementedCsrs, Config.diagnosticCsrs, List.mem_cons, List.not_mem_nil, or_false, not_or]
  refine ⟨⟨?_, ?_, ?_, ?_, ?_, ?_, ?_, ?_, ?_, ?_, ?_, ?_, ?_, ?_, ?_⟩, ?_, ?_, ?_, ?_, ?_⟩ <;> assumption

/-- A number outside R120 and the diagnostic ones names no CSR (R137). -/
theorem csrNamed_other {c : Config} {n : CsrNum} (h : n ∉ Config.implementedCsrs) (h' : n ∉ c.diagnosticCsrs) :
    csrNamed c n = .other := by
  simp only [Config.implementedCsrs, Config.diagnosticCsrs, List.mem_cons, List.not_mem_nil, or_false, not_or] at h h'
  simp only [csrNamed, h, h', if_false]

/-- The diagnostic numbers of a legal configuration name the diagnostic CSRs (R13). -/
theorem csrNamed_diagnostic {c : Config} (hc : c.Valid) :
    csrNamed c c.csrDbgDec = .dbgDec ∧ csrNamed c c.csrDbgHex = .dbgHex ∧ csrNamed c c.csrDbgStr = .dbgStr ∧
      csrNamed c c.csrDbgChar = .dbgChar ∧ csrNamed c c.csrDbgGetc = .dbgGetc := by
  obtain ⟨-, -, -, -, -, ⟨hn, hi⟩, -⟩ := hc
  have h : ∀ n ∈ c.diagnosticCsrs, n ≠ 0x300 ∧ n ≠ 0x301 ∧ n ≠ 0x304 ∧ n ≠ 0x305 ∧ n ≠ 0x340 ∧ n ≠ 0x341 ∧ n ≠ 0x342 ∧
      n ≠ 0x343 ∧ n ≠ 0x344 ∧ n ≠ 0xC00 ∧ n ≠ 0xC80 ∧ n ≠ 0xF11 ∧ n ≠ 0xF12 ∧ n ≠ 0xF13 ∧ n ≠ 0xF14 := fun n hm => by
    simpa only [Config.implementedCsrs, List.mem_cons, List.not_mem_nil, or_false, not_or] using hi n hm
  simp only [Config.diagnosticCsrs, List.nodup_cons, List.mem_cons, List.not_mem_nil, or_false, not_or] at hn
  obtain ⟨⟨g1, g2, g3, g4⟩, ⟨g5, g6, g7⟩, ⟨g8, g9⟩, g10, -⟩ := hn
  have named : ∀ n ∈ c.diagnosticCsrs, csrNamed c n =
      if n = c.csrDbgDec then .dbgDec
      else if n = c.csrDbgHex then .dbgHex
      else if n = c.csrDbgStr then .dbgStr
      else if n = c.csrDbgChar then .dbgChar
      else if n = c.csrDbgGetc then .dbgGetc
      else .other := by
    intro n hm
    obtain ⟨a1, a2, a3, a4, a5, a6, a7, a8, a9, a10, a11, a12, a13, a14, a15⟩ := h n hm
    simp only [csrNamed, a1, a2, a3, a4, a5, a6, a7, a8, a9, a10, a11, a12, a13, a14, a15, if_false]
  refine ⟨?_, ?_, ?_, ?_, ?_⟩
  · rw [named _ (by simp), if_pos rfl]
  · rw [named _ (by simp), if_neg (Ne.symm g1), if_pos rfl]
  · rw [named _ (by simp), if_neg (Ne.symm g2), if_neg (Ne.symm g5), if_pos rfl]
  · rw [named _ (by simp), if_neg (Ne.symm g3), if_neg (Ne.symm g6), if_neg (Ne.symm g8), if_pos rfl]
  · rw [named _ (by simp), if_neg (Ne.symm g4), if_neg (Ne.symm g7), if_neg (Ne.symm g9), if_neg (Ne.symm g10), if_pos rfl]

end Sys2Proof.Machine
end

