-- ==== Sys2Proof/Laws/Decode.lean ====
section
/-! SUPPORT. The decoder and the encoder: the fields of an encoded word, a word put together again from its fields, decoding after
encoding and encoding after decoding, and the mask and match form of each row of R311. -/

namespace Sys2Proof

/-! ### The fields of an encoded word -/

@[simp] theorem opcodeOf_encodeR (f7 : BitVec 7) (rs2 rs1 : Reg) (f3 : BitVec 3) (rd : Reg) (op : BitVec 7) :
    opcodeOf (encodeR f7 rs2 rs1 f3 rd op) = op := by
  ext i hi
  simp [opcodeOf, encodeR]
  grind

@[simp] theorem rdOf_encodeR (f7 : BitVec 7) (rs2 rs1 : Reg) (f3 : BitVec 3) (rd : Reg) (op : BitVec 7) :
    rdOf (encodeR f7 rs2 rs1 f3 rd op) = rd := by
  ext i hi
  simp [rdOf, encodeR]
  grind

@[simp] theorem funct3Of_encodeR (f7 : BitVec 7) (rs2 rs1 : Reg) (f3 : BitVec 3) (rd : Reg) (op : BitVec 7) :
    funct3Of (encodeR f7 rs2 rs1 f3 rd op) = f3 := by
  ext i hi
  simp [funct3Of, encodeR]
  grind

@[simp] theorem rs1Of_encodeR (f7 : BitVec 7) (rs2 rs1 : Reg) (f3 : BitVec 3) (rd : Reg) (op : BitVec 7) :
    rs1Of (encodeR f7 rs2 rs1 f3 rd op) = rs1 := by
  ext i hi
  simp [rs1Of, encodeR]
  grind

@[simp] theorem rs2Of_encodeR (f7 : BitVec 7) (rs2 rs1 : Reg) (f3 : BitVec 3) (rd : Reg) (op : BitVec 7) :
    rs2Of (encodeR f7 rs2 rs1 f3 rd op) = rs2 := by
  ext i hi
  simp [rs2Of, encodeR]
  grind

@[simp] theorem funct7Of_encodeR (f7 : BitVec 7) (rs2 rs1 : Reg) (f3 : BitVec 3) (rd : Reg) (op : BitVec 7) :
    funct7Of (encodeR f7 rs2 rs1 f3 rd op) = f7 := by
  ext i hi
  simp [funct7Of, encodeR]
  grind

@[simp] theorem opcodeOf_encodeI (imm : BitVec 12) (rs1 : Reg) (f3 : BitVec 3) (rd : Reg) (op : BitVec 7) :
    opcodeOf (encodeI imm rs1 f3 rd op) = op := by
  ext i hi
  simp [opcodeOf, encodeI]
  grind

@[simp] theorem rdOf_encodeI (imm : BitVec 12) (rs1 : Reg) (f3 : BitVec 3) (rd : Reg) (op : BitVec 7) :
    rdOf (encodeI imm rs1 f3 rd op) = rd := by
  ext i hi
  simp [rdOf, encodeI]
  grind

@[simp] theorem funct3Of_encodeI (imm : BitVec 12) (rs1 : Reg) (f3 : BitVec 3) (rd : Reg) (op : BitVec 7) :
    funct3Of (encodeI imm rs1 f3 rd op) = f3 := by
  ext i hi
  simp [funct3Of, encodeI]
  grind

@[simp] theorem rs1Of_encodeI (imm : BitVec 12) (rs1 : Reg) (f3 : BitVec 3) (rd : Reg) (op : BitVec 7) :
    rs1Of (encodeI imm rs1 f3 rd op) = rs1 := by
  ext i hi
  simp [rs1Of, encodeI]
  grind

@[simp] theorem imm12Of_encodeI (imm : BitVec 12) (rs1 : Reg) (f3 : BitVec 3) (rd : Reg) (op : BitVec 7) :
    imm12Of (encodeI imm rs1 f3 rd op) = imm := by
  ext i hi
  simp [imm12Of, encodeI]
  grind

@[simp] theorem opcodeOf_encodeS (imm : BitVec 12) (rs2 rs1 : Reg) (f3 : BitVec 3) (op : BitVec 7) :
    opcodeOf (encodeS imm rs2 rs1 f3 op) = op := by
  ext i hi
  simp [opcodeOf, encodeS]
  grind

@[simp] theorem immSOf_encodeS (imm : BitVec 12) (rs2 rs1 : Reg) (f3 : BitVec 3) (op : BitVec 7) :
    immSOf (encodeS imm rs2 rs1 f3 op) = imm := by
  have h1 : (encodeS imm rs2 rs1 f3 op).extractLsb' 25 7 = imm.extractLsb' 5 7 := by
    ext i hi
    simp only [encodeS, BitVec.getElem_extractLsb', BitVec.getLsbD_append, BitVec.getLsbD_extractLsb']
    grind
  have h2 : (encodeS imm rs2 rs1 f3 op).extractLsb' 7 5 = imm.extractLsb' 0 5 := by
    ext i hi
    simp only [encodeS, BitVec.getElem_extractLsb', BitVec.getLsbD_append, BitVec.getLsbD_extractLsb']
    grind
  unfold immSOf
  rw [h1, h2]
  ext i hi
  simp
  grind

@[simp] theorem funct3Of_encodeS (imm : BitVec 12) (rs2 rs1 : Reg) (f3 : BitVec 3) (op : BitVec 7) :
    funct3Of (encodeS imm rs2 rs1 f3 op) = f3 := by
  ext i hi
  simp [funct3Of, encodeS]
  grind

@[simp] theorem rs1Of_encodeS (imm : BitVec 12) (rs2 rs1 : Reg) (f3 : BitVec 3) (op : BitVec 7) :
    rs1Of (encodeS imm rs2 rs1 f3 op) = rs1 := by
  ext i hi
  simp [rs1Of, encodeS]
  grind

@[simp] theorem rs2Of_encodeS (imm : BitVec 12) (rs2 rs1 : Reg) (f3 : BitVec 3) (op : BitVec 7) :
    rs2Of (encodeS imm rs2 rs1 f3 op) = rs2 := by
  ext i hi
  simp [rs2Of, encodeS]
  grind

@[simp] theorem opcodeOf_encodeB (off : BitVec 13) (rs2 rs1 : Reg) (f3 : BitVec 3) (op : BitVec 7) :
    opcodeOf (encodeB off rs2 rs1 f3 op) = op := by
  ext i hi
  simp [opcodeOf, encodeB]
  grind

@[simp] theorem immBOf_encodeB (off : BitVec 13) (rs2 rs1 : Reg) (f3 : BitVec 3) (op : BitVec 7) (h : off.getLsbD 0 = false) :
    immBOf (encodeB off rs2 rs1 f3 op) = off := by
  have h1 : (encodeB off rs2 rs1 f3 op).extractLsb' 31 1 = off.extractLsb' 12 1 := by
    ext i hi
    simp only [encodeB, BitVec.getElem_extractLsb', BitVec.getLsbD_append, BitVec.getLsbD_extractLsb']
    grind
  have h2 : (encodeB off rs2 rs1 f3 op).extractLsb' 7 1 = off.extractLsb' 11 1 := by
    ext i hi
    simp only [encodeB, BitVec.getElem_extractLsb', BitVec.getLsbD_append, BitVec.getLsbD_extractLsb']
    grind
  have h3 : (encodeB off rs2 rs1 f3 op).extractLsb' 25 6 = off.extractLsb' 5 6 := by
    ext i hi
    simp only [encodeB, BitVec.getElem_extractLsb', BitVec.getLsbD_append, BitVec.getLsbD_extractLsb']
    grind
  have h4 : (encodeB off rs2 rs1 f3 op).extractLsb' 8 4 = off.extractLsb' 1 4 := by
    ext i hi
    simp only [encodeB, BitVec.getElem_extractLsb', BitVec.getLsbD_append, BitVec.getLsbD_extractLsb']
    grind
  unfold immBOf
  rw [h1, h2, h3, h4]
  ext i hi
  simp
  grind

@[simp] theorem funct3Of_encodeB (off : BitVec 13) (rs2 rs1 : Reg) (f3 : BitVec 3) (op : BitVec 7) :
    funct3Of (encodeB off rs2 rs1 f3 op) = f3 := by
  ext i hi
  simp [funct3Of, encodeB]
  grind

@[simp] theorem rs1Of_encodeB (off : BitVec 13) (rs2 rs1 : Reg) (f3 : BitVec 3) (op : BitVec 7) :
    rs1Of (encodeB off rs2 rs1 f3 op) = rs1 := by
  ext i hi
  simp [rs1Of, encodeB]
  grind

@[simp] theorem rs2Of_encodeB (off : BitVec 13) (rs2 rs1 : Reg) (f3 : BitVec 3) (op : BitVec 7) :
    rs2Of (encodeB off rs2 rs1 f3 op) = rs2 := by
  ext i hi
  simp [rs2Of, encodeB]
  grind

@[simp] theorem opcodeOf_encodeU (imm : BitVec 20) (rd : Reg) (op : BitVec 7) :
    opcodeOf (encodeU imm rd op) = op := by
  ext i hi
  simp [opcodeOf, encodeU]
  grind

@[simp] theorem rdOf_encodeU (imm : BitVec 20) (rd : Reg) (op : BitVec 7) :
    rdOf (encodeU imm rd op) = rd := by
  ext i hi
  simp [rdOf, encodeU]
  grind

@[simp] theorem imm20Of_encodeU (imm : BitVec 20) (rd : Reg) (op : BitVec 7) :
    imm20Of (encodeU imm rd op) = imm := by
  ext i hi
  simp [imm20Of, encodeU]
  grind

@[simp] theorem opcodeOf_encodeJ (off : BitVec 21) (rd : Reg) (op : BitVec 7) :
    opcodeOf (encodeJ off rd op) = op := by
  ext i hi
  simp [opcodeOf, encodeJ]
  grind

@[simp] theorem rdOf_encodeJ (off : BitVec 21) (rd : Reg) (op : BitVec 7) :
    rdOf (encodeJ off rd op) = rd := by
  ext i hi
  simp [rdOf, encodeJ]
  grind

@[simp] theorem immJOf_encodeJ (off : BitVec 21) (rd : Reg) (op : BitVec 7) (h : off.getLsbD 0 = false) :
    immJOf (encodeJ off rd op) = off := by
  have h1 : (encodeJ off rd op).extractLsb' 31 1 = off.extractLsb' 20 1 := by
    ext i hi
    simp only [encodeJ, BitVec.getElem_extractLsb', BitVec.getLsbD_append, BitVec.getLsbD_extractLsb']
    grind
  have h2 : (encodeJ off rd op).extractLsb' 12 8 = off.extractLsb' 12 8 := by
    ext i hi
    simp only [encodeJ, BitVec.getElem_extractLsb', BitVec.getLsbD_append, BitVec.getLsbD_extractLsb']
    grind
  have h3 : (encodeJ off rd op).extractLsb' 20 1 = off.extractLsb' 11 1 := by
    ext i hi
    simp only [encodeJ, BitVec.getElem_extractLsb', BitVec.getLsbD_append, BitVec.getLsbD_extractLsb']
    grind
  have h4 : (encodeJ off rd op).extractLsb' 21 10 = off.extractLsb' 1 10 := by
    ext i hi
    simp only [encodeJ, BitVec.getElem_extractLsb', BitVec.getLsbD_append, BitVec.getLsbD_extractLsb']
    grind
  unfold immJOf
  rw [h1, h2, h3, h4]
  ext i hi
  simp
  grind

@[simp] theorem opcodeOf_encodeAmo (f5 : BitVec 5) (aq rl : Bool) (rs2 rs1 rd : Reg) :
    opcodeOf (encodeAmo f5 aq rl rs2 rs1 rd) = 0b0101111#7 := by
  ext i hi
  simp [opcodeOf, encodeAmo]
  grind

@[simp] theorem rdOf_encodeAmo (f5 : BitVec 5) (aq rl : Bool) (rs2 rs1 rd : Reg) :
    rdOf (encodeAmo f5 aq rl rs2 rs1 rd) = rd := by
  ext i hi
  simp [rdOf, encodeAmo]
  grind

@[simp] theorem funct3Of_encodeAmo (f5 : BitVec 5) (aq rl : Bool) (rs2 rs1 rd : Reg) :
    funct3Of (encodeAmo f5 aq rl rs2 rs1 rd) = 0b010#3 := by
  ext i hi
  simp [funct3Of, encodeAmo]
  grind

@[simp] theorem rs1Of_encodeAmo (f5 : BitVec 5) (aq rl : Bool) (rs2 rs1 rd : Reg) :
    rs1Of (encodeAmo f5 aq rl rs2 rs1 rd) = rs1 := by
  ext i hi
  simp [rs1Of, encodeAmo]
  grind

@[simp] theorem rs2Of_encodeAmo (f5 : BitVec 5) (aq rl : Bool) (rs2 rs1 rd : Reg) :
    rs2Of (encodeAmo f5 aq rl rs2 rs1 rd) = rs2 := by
  ext i hi
  simp [rs2Of, encodeAmo]
  grind

@[simp] theorem funct5Of_encodeAmo (f5 : BitVec 5) (aq rl : Bool) (rs2 rs1 rd : Reg) :
    funct5Of (encodeAmo f5 aq rl rs2 rs1 rd) = f5 := by
  ext i hi
  simp [funct5Of, encodeAmo]
  grind

@[simp] theorem aqOf_encodeAmo (f5 : BitVec 5) (aq rl : Bool) (rs2 rs1 rd : Reg) :
    aqOf (encodeAmo f5 aq rl rs2 rs1 rd) = aq := by
  simp [aqOf, encodeAmo]
  grind

@[simp] theorem rlOf_encodeAmo (f5 : BitVec 5) (aq rl : Bool) (rs2 rs1 rd : Reg) :
    rlOf (encodeAmo f5 aq rl rs2 rs1 rd) = rl := by
  simp [rlOf, encodeAmo]
  grind

@[simp] theorem opcodeOf_encodeFence (fm pred succ : BitVec 4) (rs1 : Reg) (f3 : BitVec 3) (rd : Reg) :
    opcodeOf (encodeFence fm pred succ rs1 f3 rd) = 0b0001111#7 := by
  ext i hi
  simp [opcodeOf, encodeFence]
  grind

@[simp] theorem rdOf_encodeFence (fm pred succ : BitVec 4) (rs1 : Reg) (f3 : BitVec 3) (rd : Reg) :
    rdOf (encodeFence fm pred succ rs1 f3 rd) = rd := by
  ext i hi
  simp [rdOf, encodeFence]
  grind

@[simp] theorem funct3Of_encodeFence (fm pred succ : BitVec 4) (rs1 : Reg) (f3 : BitVec 3) (rd : Reg) :
    funct3Of (encodeFence fm pred succ rs1 f3 rd) = f3 := by
  ext i hi
  simp [funct3Of, encodeFence]
  grind

@[simp] theorem rs1Of_encodeFence (fm pred succ : BitVec 4) (rs1 : Reg) (f3 : BitVec 3) (rd : Reg) :
    rs1Of (encodeFence fm pred succ rs1 f3 rd) = rs1 := by
  ext i hi
  simp [rs1Of, encodeFence]
  grind

@[simp] theorem succ_encodeFence (fm pred succ : BitVec 4) (rs1 : Reg) (f3 : BitVec 3) (rd : Reg) :
    (encodeFence fm pred succ rs1 f3 rd).extractLsb' 20 4 = succ := by
  ext i hi
  simp [encodeFence]
  grind

@[simp] theorem pred_encodeFence (fm pred succ : BitVec 4) (rs1 : Reg) (f3 : BitVec 3) (rd : Reg) :
    (encodeFence fm pred succ rs1 f3 rd).extractLsb' 24 4 = pred := by
  ext i hi
  simp [encodeFence]
  grind

@[simp] theorem fm_encodeFence (fm pred succ : BitVec 4) (rs1 : Reg) (f3 : BitVec 3) (rd : Reg) :
    (encodeFence fm pred succ rs1 f3 rd).extractLsb' 28 4 = fm := by
  ext i hi
  simp [encodeFence]
  grind

/-- The length bits are the low bits of the opcode (R300). -/
theorem length_bits (w : Word) : w.extractLsb' 0 2 = (opcodeOf w).extractLsb' 0 2 := by
  ext i hi
  simp [opcodeOf]

/-! ### A word from its fields -/

theorem encodeR_fields (w : Word) : encodeR (funct7Of w) (rs2Of w) (rs1Of w) (funct3Of w) (rdOf w) (opcodeOf w) = w := by
  ext i hi
  simp [funct7Of, rs2Of, rs1Of, funct3Of, rdOf, opcodeOf, encodeR]
  grind

theorem encodeI_fields (w : Word) : encodeI (imm12Of w) (rs1Of w) (funct3Of w) (rdOf w) (opcodeOf w) = w := by
  ext i hi
  simp [rs1Of, funct3Of, rdOf, opcodeOf, imm12Of, encodeI]
  grind

theorem encodeS_fields (w : Word) : encodeS (immSOf w) (rs2Of w) (rs1Of w) (funct3Of w) (opcodeOf w) = w := by
  have h1 : (immSOf w).extractLsb' 5 7 = w.extractLsb' 25 7 := by
    ext i hi
    simp [immSOf]
    grind
  have h2 : (immSOf w).extractLsb' 0 5 = w.extractLsb' 7 5 := by
    ext i hi
    simp [immSOf]
    grind
  unfold encodeS
  rw [h1, h2]
  ext i hi
  simp [rs2Of, rs1Of, funct3Of, opcodeOf]
  grind

theorem encodeB_fields (w : Word) : encodeB (immBOf w) (rs2Of w) (rs1Of w) (funct3Of w) (opcodeOf w) = w := by
  have h1 : (immBOf w).extractLsb' 12 1 = w.extractLsb' 31 1 := by
    ext i hi
    simp [immBOf]
    grind
  have h2 : (immBOf w).extractLsb' 11 1 = w.extractLsb' 7 1 := by
    ext i hi
    simp [immBOf]
    grind
  have h3 : (immBOf w).extractLsb' 5 6 = w.extractLsb' 25 6 := by
    ext i hi
    simp [immBOf]
    grind
  have h4 : (immBOf w).extractLsb' 1 4 = w.extractLsb' 8 4 := by
    ext i hi
    simp [immBOf]
    grind
  unfold encodeB
  rw [h1, h2, h3, h4]
  ext i hi
  simp [rs2Of, rs1Of, funct3Of, opcodeOf]
  grind

theorem encodeU_fields (w : Word) : encodeU (imm20Of w) (rdOf w) (opcodeOf w) = w := by
  ext i hi
  simp [rdOf, opcodeOf, imm20Of, encodeU]
  grind

theorem encodeJ_fields (w : Word) : encodeJ (immJOf w) (rdOf w) (opcodeOf w) = w := by
  have h1 : (immJOf w).extractLsb' 20 1 = w.extractLsb' 31 1 := by
    ext i hi
    simp [immJOf]
    grind
  have h2 : (immJOf w).extractLsb' 12 8 = w.extractLsb' 12 8 := by
    ext i hi
    simp [immJOf]
    grind
  have h3 : (immJOf w).extractLsb' 11 1 = w.extractLsb' 20 1 := by
    ext i hi
    simp [immJOf]
    grind
  have h4 : (immJOf w).extractLsb' 1 10 = w.extractLsb' 21 10 := by
    ext i hi
    simp [immJOf]
    grind
  unfold encodeJ
  rw [h1, h2, h3, h4]
  ext i hi
  simp [rdOf, opcodeOf]
  grind

theorem encodeAmo_fields (w : Word) (hop : opcodeOf w = 0b0101111#7) (h3 : funct3Of w = 0b010#3) :
    encodeAmo (funct5Of w) (aqOf w) (rlOf w) (rs2Of w) (rs1Of w) (rdOf w) = w := by
  unfold encodeAmo
  rw [← hop, ← h3]
  ext i hi
  simp [funct5Of, aqOf, rlOf, rs2Of, rs1Of, funct3Of, rdOf, opcodeOf]
  grind

theorem encodeFence_fields (w : Word) (hop : opcodeOf w = 0b0001111#7) :
    encodeFence (w.extractLsb' 28 4) (w.extractLsb' 24 4) (w.extractLsb' 20 4) (rs1Of w) (funct3Of w) (rdOf w) = w := by
  unfold encodeFence
  rw [← hop]
  ext i hi
  simp [rs1Of, funct3Of, rdOf, opcodeOf]
  grind

/-- The offsets that words hold are even (R303). -/
theorem immBOf_even (w : Word) : (immBOf w).getLsbD 0 = false := by
  simp [immBOf]
  grind

theorem immJOf_even (w : Word) : (immJOf w).getLsbD 0 = false := by
  simp [immJOf]
  grind

/-! ### When a word is the encoding of its own fields -/

theorem encodeU_eq_iff (w : Word) (op : BitVec 7) : encodeU (imm20Of w) (rdOf w) op = w ↔ opcodeOf w = op :=
  ⟨fun h => by rw [← h]; simp, fun h => by rw [← h]; exact encodeU_fields w⟩

theorem encodeJ_eq_iff (w : Word) (op : BitVec 7) : encodeJ (immJOf w) (rdOf w) op = w ↔ opcodeOf w = op :=
  ⟨fun h => by rw [← h]; simp, fun h => by rw [← h]; exact encodeJ_fields w⟩

theorem encodeI_eq_iff (w : Word) (f3 : BitVec 3) (op : BitVec 7) :
    encodeI (imm12Of w) (rs1Of w) f3 (rdOf w) op = w ↔ opcodeOf w = op ∧ funct3Of w = f3 :=
  ⟨fun h => by rw [← h]; simp, fun ⟨h1, h2⟩ => by rw [← h1, ← h2]; exact encodeI_fields w⟩

theorem encodeS_eq_iff (w : Word) (f3 : BitVec 3) (op : BitVec 7) :
    encodeS (immSOf w) (rs2Of w) (rs1Of w) f3 op = w ↔ opcodeOf w = op ∧ funct3Of w = f3 :=
  ⟨fun h => by rw [← h]; simp, fun ⟨h1, h2⟩ => by rw [← h1, ← h2]; exact encodeS_fields w⟩

theorem encodeB_eq_iff (w : Word) (f3 : BitVec 3) (op : BitVec 7) :
    encodeB (immBOf w) (rs2Of w) (rs1Of w) f3 op = w ↔ opcodeOf w = op ∧ funct3Of w = f3 :=
  ⟨fun h => by rw [← h]; simp, fun ⟨h1, h2⟩ => by rw [← h1, ← h2]; exact encodeB_fields w⟩

theorem encodeR_eq_iff (w : Word) (f7 : BitVec 7) (f3 : BitVec 3) (op : BitVec 7) :
    encodeR f7 (rs2Of w) (rs1Of w) f3 (rdOf w) op = w ↔ opcodeOf w = op ∧ funct3Of w = f3 ∧ funct7Of w = f7 :=
  ⟨fun h => by rw [← h]; simp, fun ⟨h1, h2, h3⟩ => by rw [← h1, ← h2, ← h3]; exact encodeR_fields w⟩

theorem encodeAmo_eq_iff (w : Word) (f5 : BitVec 5) :
    encodeAmo f5 (aqOf w) (rlOf w) (rs2Of w) (rs1Of w) (rdOf w) = w ↔
      opcodeOf w = 0b0101111#7 ∧ funct3Of w = 0b010#3 ∧ funct5Of w = f5 :=
  ⟨fun h => by rw [← h]; simp, fun ⟨h1, h2, h3⟩ => by rw [← h3]; exact encodeAmo_fields w h1 h2⟩

theorem encodeFence_eq_iff (w : Word) (f3 : BitVec 3) :
    encodeFence (w.extractLsb' 28 4) (w.extractLsb' 24 4) (w.extractLsb' 20 4) (rs1Of w) f3 (rdOf w) = w ↔
      opcodeOf w = 0b0001111#7 ∧ funct3Of w = f3 :=
  ⟨fun h => by rw [← h]; simp, fun ⟨h1, h2⟩ => by rw [← h2]; exact encodeFence_fields w h1⟩

/-! ### Masks (R311) -/

theorem and_encodeR (f7 g7 : BitVec 7) (a b c d e f : Reg) (f3 g3 : BitVec 3) (op oq : BitVec 7) :
    encodeR f7 a b f3 c op &&& encodeR g7 d e g3 f oq =
      encodeR (f7 &&& g7) (a &&& d) (b &&& e) (f3 &&& g3) (c &&& f) (op &&& oq) := by
  change (f7 ++ a ++ b ++ f3 ++ c ++ op : BitVec (7 + 5 + 5 + 3 + 5 + 7)) &&& (g7 ++ d ++ e ++ g3 ++ f ++ oq) = _
  simp only [BitVec.and_append]
  rfl

/-- Rows that fix the opcode. -/
theorem spells_opcode (w : Word) (op : BitVec 7) : w &&& 0x0000007F = encodeR 0 0 0 0 0 op ↔ opcodeOf w = op := by
  have key : w &&& 0x0000007F = encodeR 0 0 0 0 0 (opcodeOf w) := by
    conv_lhs => rw [← encodeR_fields w, show (0x0000007F : Word) = encodeR 0 0 0 0 0 (BitVec.allOnes 7) by decide]
    rw [and_encodeR]
    simp only [BitVec.and_allOnes]
    simp
  rw [key]
  exact ⟨fun h => by simpa using congrArg opcodeOf h, fun h => by rw [h]⟩

/-- Rows that fix the opcode and funct3. -/
theorem spells_funct3 (w : Word) (f3 : BitVec 3) (op : BitVec 7) :
    w &&& 0x0000707F = encodeR 0 0 0 f3 0 op ↔ opcodeOf w = op ∧ funct3Of w = f3 := by
  have key : w &&& 0x0000707F = encodeR 0 0 0 (funct3Of w) 0 (opcodeOf w) := by
    conv_lhs =>
      rw [← encodeR_fields w, show (0x0000707F : Word) = encodeR 0 0 0 (BitVec.allOnes 3) 0 (BitVec.allOnes 7) by decide]
    rw [and_encodeR]
    simp only [BitVec.and_allOnes]
    simp
  rw [key]
  exact ⟨fun h => ⟨by simpa using congrArg opcodeOf h, by simpa using congrArg funct3Of h⟩,
    fun ⟨h1, h2⟩ => by rw [h1, h2]⟩

/-- Rows that fix the opcode, funct3 and funct7. -/
theorem spells_funct7 (w : Word) (f7 : BitVec 7) (f3 : BitVec 3) (op : BitVec 7) :
    w &&& 0xFE00707F = encodeR f7 0 0 f3 0 op ↔ opcodeOf w = op ∧ funct3Of w = f3 ∧ funct7Of w = f7 := by
  have key : w &&& 0xFE00707F = encodeR (funct7Of w) 0 0 (funct3Of w) 0 (opcodeOf w) := by
    conv_lhs =>
      rw [← encodeR_fields w,
        show (0xFE00707F : Word) = encodeR (BitVec.allOnes 7) 0 0 (BitVec.allOnes 3) 0 (BitVec.allOnes 7) by decide]
    rw [and_encodeR]
    simp only [BitVec.and_allOnes]
    simp
  rw [key]
  exact ⟨fun h => ⟨by simpa using congrArg opcodeOf h, by simpa using congrArg funct3Of h,
    by simpa using congrArg funct7Of h⟩, fun ⟨h1, h2, h3⟩ => by rw [h1, h2, h3]⟩

/-- The funct7 field is funct5, aq and rl (R301). -/
theorem funct7_eq (w : Word) : funct7Of w = funct5Of w ++ BitVec.ofBool (aqOf w) ++ BitVec.ofBool (rlOf w) := by
  ext i hi
  simp [funct7Of, funct5Of, aqOf, rlOf]
  grind

theorem and_funct5 (f5 : BitVec 5) (aq rl : Bool) :
    f5 ++ BitVec.ofBool aq ++ BitVec.ofBool rl &&& (0b1111100#7 : BitVec 7) = f5 ++ 0#1 ++ 0#1 := by
  rw [show (0b1111100#7 : BitVec 7) = BitVec.allOnes 5 ++ 0#1 ++ 0#1 by decide]
  change (f5 ++ BitVec.ofBool aq ++ BitVec.ofBool rl : BitVec (5 + 1 + 1)) &&& (BitVec.allOnes 5 ++ 0#1 ++ 0#1) = _
  simp only [BitVec.and_append, BitVec.and_allOnes, BitVec.and_zero]

/-- funct5 is the top of funct7 (R301). -/
theorem funct5_eq (w : Word) : funct5Of w = (funct7Of w).extractLsb' 2 5 := by
  ext i hi
  simp [funct7Of, funct5Of]
  grind

/-- The AMO rows: opcode, funct3 and funct5. -/
theorem spells_funct5 (w : Word) (f5 : BitVec 5) :
    w &&& 0xF800707F = encodeAmo f5 false false 0 0 0 ↔
      opcodeOf w = 0b0101111#7 ∧ funct3Of w = 0b010#3 ∧ funct5Of w = f5 := by
  have key : w &&& 0xF800707F = encodeR (funct5Of w ++ 0#1 ++ 0#1) 0 0 (funct3Of w) 0 (opcodeOf w) := by
    conv_lhs =>
      rw [← encodeR_fields w, funct7_eq,
        show (0xF800707F : Word) =
          encodeR 0b1111100#7 0 0 (BitVec.allOnes 3) 0 (BitVec.allOnes 7) by decide]
    rw [and_encodeR]
    simp only [BitVec.and_allOnes, and_funct5]
    simp
  rw [key]
  constructor
  · intro h
    have h1 := congrArg opcodeOf h
    have h2 := congrArg funct3Of h
    have h3 := congrArg funct5Of h
    rw [funct5Of_encodeAmo, funct5_eq, funct7Of_encodeR] at h3
    simp only [opcodeOf_encodeR, opcodeOf_encodeAmo, funct3Of_encodeR, funct3Of_encodeAmo] at h1 h2
    refine ⟨h1, h2, ?_⟩
    rw [← h3]
    ext i hi
    simp
    grind
  · rintro ⟨h1, h2, h3⟩
    rw [h1, h2, h3]
    rfl

/-- The LR.W row: opcode, funct3, funct5 and rs2. -/
theorem spells_loadReserved (w : Word) :
    w &&& 0xF9F0707F = 0x1000202F ↔
      opcodeOf w = 0b0101111#7 ∧ funct3Of w = 0b010#3 ∧ funct5Of w = 0b00010#5 ∧ rs2Of w = 0b00000#5 := by
  have key : w &&& 0xF9F0707F = encodeR (funct5Of w ++ 0#1 ++ 0#1) (rs2Of w) 0 (funct3Of w) 0 (opcodeOf w) := by
    conv_lhs =>
      rw [← encodeR_fields w, funct7_eq,
        show (0xF9F0707F : Word) =
          encodeR 0b1111100#7 (BitVec.allOnes 5) 0 (BitVec.allOnes 3) 0 (BitVec.allOnes 7) by decide]
    rw [and_encodeR]
    simp only [BitVec.and_allOnes, and_funct5]
    simp
  rw [key, show (0x1000202F : Word) = encodeAmo 0b00010#5 false false 0b00000#5 0 0 by decide]
  constructor
  · intro h
    have h1 := congrArg opcodeOf h
    have h2 := congrArg funct3Of h
    have h3 := congrArg funct5Of h
    have h4 := congrArg rs2Of h
    rw [funct5Of_encodeAmo, funct5_eq, funct7Of_encodeR] at h3
    simp only [opcodeOf_encodeR, opcodeOf_encodeAmo, funct3Of_encodeR, funct3Of_encodeAmo, rs2Of_encodeR,
      rs2Of_encodeAmo] at h1 h2 h4
    refine ⟨h1, h2, ?_, h4⟩
    rw [← h3]
    ext i hi
    simp
    grind
  · rintro ⟨h1, h2, h3, h4⟩
    rw [h1, h2, h3, h4]
    rfl

/-- The rows that fix every bit. -/
theorem spells_word (w v : Word) : w &&& 0xFFFFFFFF = v ↔ w = v := by
  rw [show (0xFFFFFFFF : Word) = BitVec.allOnes 32 by decide, BitVec.and_allOnes]

end Sys2Proof
end

