-- ==== Sys2Proof/Laws/Frames.lean ====
section
/-! SUPPORT. What the operations with cases leave unchanged, field by field: taking an exception, the keyboard poll, device loads and
stores, CSR reads and writes, the start of a batch. -/

namespace Sys2Proof.Machine

/-! ### `State.takeException` -/

@[simp] theorem State.takeException_cfg (s : State) (e : Exception) : (s.takeException e).cfg = s.cfg := by unfold State.takeException; split <;> rfl
@[simp] theorem State.takeException_firmware (s : State) (e : Exception) : (s.takeException e).firmware = s.firmware := by unfold State.takeException; split <;> rfl
@[simp] theorem State.takeException_regs (s : State) (e : Exception) : (s.takeException e).regs = s.regs := by unfold State.takeException; split <;> rfl
@[simp] theorem State.takeException_cycle64 (s : State) (e : Exception) : (s.takeException e).cycle64 = s.cycle64 := by unfold State.takeException; split <;> rfl
@[simp] theorem State.takeException_mtime (s : State) (e : Exception) : (s.takeException e).mtime = s.mtime := by unfold State.takeException; split <;> rfl
@[simp] theorem State.takeException_mtimecmp (s : State) (e : Exception) : (s.takeException e).mtimecmp = s.mtimecmp := by unfold State.takeException; split <;> rfl
@[simp] theorem State.takeException_wfi (s : State) (e : Exception) : (s.takeException e).wfi = s.wfi := by unfold State.takeException; split <;> rfl
@[simp] theorem State.takeException_resvValid (s : State) (e : Exception) : (s.takeException e).resvValid = s.resvValid := by unfold State.takeException; split <;> rfl
@[simp] theorem State.takeException_resvAddr (s : State) (e : Exception) : (s.takeException e).resvAddr = s.resvAddr := by unfold State.takeException; split <;> rfl
@[simp] theorem State.takeException_mtie (s : State) (e : Exception) : (s.takeException e).mtie = s.mtie := by unfold State.takeException; split <;> rfl
@[simp] theorem State.takeException_mtip (s : State) (e : Exception) : (s.takeException e).mtip = s.mtip := by unfold State.takeException; split <;> rfl
@[simp] theorem State.takeException_mtvec (s : State) (e : Exception) : (s.takeException e).mtvec = s.mtvec := by unfold State.takeException; split <;> rfl
@[simp] theorem State.takeException_mscratch (s : State) (e : Exception) : (s.takeException e).mscratch = s.mscratch := by unfold State.takeException; split <;> rfl
@[simp] theorem State.takeException_mem (s : State) (e : Exception) : (s.takeException e).mem = s.mem := by unfold State.takeException; split <;> rfl
@[simp] theorem State.takeException_vblank (s : State) (e : Exception) : (s.takeException e).vblank = s.vblank := by unfold State.takeException; split <;> rfl
@[simp] theorem State.takeException_present (s : State) (e : Exception) : (s.takeException e).present = s.present := by unfold State.takeException; split <;> rfl
@[simp] theorem State.takeException_kbd (s : State) (e : Exception) : (s.takeException e).kbd = s.kbd := by unfold State.takeException; split <;> rfl
@[simp] theorem State.takeException_console (s : State) (e : Exception) : (s.takeException e).console = s.console := by unfold State.takeException; split <;> rfl
@[simp] theorem State.takeException_turns (s : State) (e : Exception) : (s.takeException e).turns = s.turns := by unfold State.takeException; split <;> rfl
@[simp] theorem State.takeException_keyFeed (s : State) (e : Exception) : (s.takeException e).keyFeed = s.keyFeed := by unfold State.takeException; split <;> rfl
@[simp] theorem State.takeException_draws (s : State) (e : Exception) : (s.takeException e).draws = s.draws := by unfold State.takeException; split <;> rfl

/-! ### `State.takeKey` -/

@[simp] theorem State.takeKey_cfg (s : State) : (s.takeKey.2).cfg = s.cfg := by unfold State.takeKey; split <;> simp
@[simp] theorem State.takeKey_firmware (s : State) : (s.takeKey.2).firmware = s.firmware := by unfold State.takeKey; split <;> simp
@[simp] theorem State.takeKey_regs (s : State) : (s.takeKey.2).regs = s.regs := by unfold State.takeKey; split <;> simp
@[simp] theorem State.takeKey_pc (s : State) : (s.takeKey.2).pc = s.pc := by unfold State.takeKey; split <;> simp
@[simp] theorem State.takeKey_cycle64 (s : State) : (s.takeKey.2).cycle64 = s.cycle64 := by unfold State.takeKey; split <;> simp
@[simp] theorem State.takeKey_mtime (s : State) : (s.takeKey.2).mtime = s.mtime := by unfold State.takeKey; split <;> simp
@[simp] theorem State.takeKey_mtimecmp (s : State) : (s.takeKey.2).mtimecmp = s.mtimecmp := by unfold State.takeKey; split <;> simp
@[simp] theorem State.takeKey_priv (s : State) : (s.takeKey.2).priv = s.priv := by unfold State.takeKey; split <;> simp
@[simp] theorem State.takeKey_wfi (s : State) : (s.takeKey.2).wfi = s.wfi := by unfold State.takeKey; split <;> simp
@[simp] theorem State.takeKey_resvValid (s : State) : (s.takeKey.2).resvValid = s.resvValid := by unfold State.takeKey; split <;> simp
@[simp] theorem State.takeKey_resvAddr (s : State) : (s.takeKey.2).resvAddr = s.resvAddr := by unfold State.takeKey; split <;> simp
@[simp] theorem State.takeKey_mstatus (s : State) : (s.takeKey.2).mstatus = s.mstatus := by unfold State.takeKey; split <;> simp
@[simp] theorem State.takeKey_mtie (s : State) : (s.takeKey.2).mtie = s.mtie := by unfold State.takeKey; split <;> simp
@[simp] theorem State.takeKey_mtip (s : State) : (s.takeKey.2).mtip = s.mtip := by unfold State.takeKey; split <;> simp
@[simp] theorem State.takeKey_mtvec (s : State) : (s.takeKey.2).mtvec = s.mtvec := by unfold State.takeKey; split <;> simp
@[simp] theorem State.takeKey_mscratch (s : State) : (s.takeKey.2).mscratch = s.mscratch := by unfold State.takeKey; split <;> simp
@[simp] theorem State.takeKey_mepc (s : State) : (s.takeKey.2).mepc = s.mepc := by unfold State.takeKey; split <;> simp
@[simp] theorem State.takeKey_mcause (s : State) : (s.takeKey.2).mcause = s.mcause := by unfold State.takeKey; split <;> simp
@[simp] theorem State.takeKey_mtval (s : State) : (s.takeKey.2).mtval = s.mtval := by unfold State.takeKey; split <;> simp
@[simp] theorem State.takeKey_mem (s : State) : (s.takeKey.2).mem = s.mem := by unfold State.takeKey; split <;> simp
@[simp] theorem State.takeKey_vblank (s : State) : (s.takeKey.2).vblank = s.vblank := by unfold State.takeKey; split <;> simp
@[simp] theorem State.takeKey_present (s : State) : (s.takeKey.2).present = s.present := by unfold State.takeKey; split <;> simp
@[simp] theorem State.takeKey_console (s : State) : (s.takeKey.2).console = s.console := by unfold State.takeKey; split <;> simp
@[simp] theorem State.takeKey_phase (s : State) : (s.takeKey.2).phase = s.phase := by unfold State.takeKey; split <;> simp
@[simp] theorem State.takeKey_turns (s : State) : (s.takeKey.2).turns = s.turns := by unfold State.takeKey; split <;> simp

/-! ### `deviceLoad` -/

@[simp] theorem deviceLoad_cfg (p : LoadPort) (s : State) : ((deviceLoad p s).2).cfg = s.cfg := by cases p <;> simp [deviceLoad]
@[simp] theorem deviceLoad_firmware (p : LoadPort) (s : State) : ((deviceLoad p s).2).firmware = s.firmware := by cases p <;> simp [deviceLoad]
@[simp] theorem deviceLoad_regs (p : LoadPort) (s : State) : ((deviceLoad p s).2).regs = s.regs := by cases p <;> simp [deviceLoad]
@[simp] theorem deviceLoad_pc (p : LoadPort) (s : State) : ((deviceLoad p s).2).pc = s.pc := by cases p <;> simp [deviceLoad]
@[simp] theorem deviceLoad_cycle64 (p : LoadPort) (s : State) : ((deviceLoad p s).2).cycle64 = s.cycle64 := by cases p <;> simp [deviceLoad]
@[simp] theorem deviceLoad_mtime (p : LoadPort) (s : State) : ((deviceLoad p s).2).mtime = s.mtime := by cases p <;> simp [deviceLoad]
@[simp] theorem deviceLoad_mtimecmp (p : LoadPort) (s : State) : ((deviceLoad p s).2).mtimecmp = s.mtimecmp := by cases p <;> simp [deviceLoad]
@[simp] theorem deviceLoad_priv (p : LoadPort) (s : State) : ((deviceLoad p s).2).priv = s.priv := by cases p <;> simp [deviceLoad]
@[simp] theorem deviceLoad_wfi (p : LoadPort) (s : State) : ((deviceLoad p s).2).wfi = s.wfi := by cases p <;> simp [deviceLoad]
@[simp] theorem deviceLoad_resvValid (p : LoadPort) (s : State) : ((deviceLoad p s).2).resvValid = s.resvValid := by cases p <;> simp [deviceLoad]
@[simp] theorem deviceLoad_resvAddr (p : LoadPort) (s : State) : ((deviceLoad p s).2).resvAddr = s.resvAddr := by cases p <;> simp [deviceLoad]
@[simp] theorem deviceLoad_mstatus (p : LoadPort) (s : State) : ((deviceLoad p s).2).mstatus = s.mstatus := by cases p <;> simp [deviceLoad]
@[simp] theorem deviceLoad_mtie (p : LoadPort) (s : State) : ((deviceLoad p s).2).mtie = s.mtie := by cases p <;> simp [deviceLoad]
@[simp] theorem deviceLoad_mtip (p : LoadPort) (s : State) : ((deviceLoad p s).2).mtip = s.mtip := by cases p <;> simp [deviceLoad]
@[simp] theorem deviceLoad_mtvec (p : LoadPort) (s : State) : ((deviceLoad p s).2).mtvec = s.mtvec := by cases p <;> simp [deviceLoad]
@[simp] theorem deviceLoad_mscratch (p : LoadPort) (s : State) : ((deviceLoad p s).2).mscratch = s.mscratch := by cases p <;> simp [deviceLoad]
@[simp] theorem deviceLoad_mepc (p : LoadPort) (s : State) : ((deviceLoad p s).2).mepc = s.mepc := by cases p <;> simp [deviceLoad]
@[simp] theorem deviceLoad_mcause (p : LoadPort) (s : State) : ((deviceLoad p s).2).mcause = s.mcause := by cases p <;> simp [deviceLoad]
@[simp] theorem deviceLoad_mtval (p : LoadPort) (s : State) : ((deviceLoad p s).2).mtval = s.mtval := by cases p <;> simp [deviceLoad]
@[simp] theorem deviceLoad_mem (p : LoadPort) (s : State) : ((deviceLoad p s).2).mem = s.mem := by cases p <;> simp [deviceLoad]
@[simp] theorem deviceLoad_present (p : LoadPort) (s : State) : ((deviceLoad p s).2).present = s.present := by cases p <;> simp [deviceLoad]
@[simp] theorem deviceLoad_console (p : LoadPort) (s : State) : ((deviceLoad p s).2).console = s.console := by cases p <;> simp [deviceLoad]
@[simp] theorem deviceLoad_phase (p : LoadPort) (s : State) : ((deviceLoad p s).2).phase = s.phase := by cases p <;> simp [deviceLoad]
@[simp] theorem deviceLoad_turns (p : LoadPort) (s : State) : ((deviceLoad p s).2).turns = s.turns := by cases p <;> simp [deviceLoad]

/-! ### `deviceStore` -/

@[simp] theorem deviceStore_cfg (p : StorePort) (w : Width) (v : Word) (s : State) : (deviceStore p w v s).cfg = s.cfg := by cases p <;> simp only [deviceStore, sysconStore] <;> (try split) <;> (try split) <;> rfl
@[simp] theorem deviceStore_firmware (p : StorePort) (w : Width) (v : Word) (s : State) : (deviceStore p w v s).firmware = s.firmware := by cases p <;> simp only [deviceStore, sysconStore] <;> (try split) <;> (try split) <;> rfl
@[simp] theorem deviceStore_regs (p : StorePort) (w : Width) (v : Word) (s : State) : (deviceStore p w v s).regs = s.regs := by cases p <;> simp only [deviceStore, sysconStore] <;> (try split) <;> (try split) <;> rfl
@[simp] theorem deviceStore_pc (p : StorePort) (w : Width) (v : Word) (s : State) : (deviceStore p w v s).pc = s.pc := by cases p <;> simp only [deviceStore, sysconStore] <;> (try split) <;> (try split) <;> rfl
@[simp] theorem deviceStore_cycle64 (p : StorePort) (w : Width) (v : Word) (s : State) : (deviceStore p w v s).cycle64 = s.cycle64 := by cases p <;> simp only [deviceStore, sysconStore] <;> (try split) <;> (try split) <;> rfl
@[simp] theorem deviceStore_mtime (p : StorePort) (w : Width) (v : Word) (s : State) : (deviceStore p w v s).mtime = s.mtime := by cases p <;> simp only [deviceStore, sysconStore] <;> (try split) <;> (try split) <;> rfl
@[simp] theorem deviceStore_priv (p : StorePort) (w : Width) (v : Word) (s : State) : (deviceStore p w v s).priv = s.priv := by cases p <;> simp only [deviceStore, sysconStore] <;> (try split) <;> (try split) <;> rfl
@[simp] theorem deviceStore_wfi (p : StorePort) (w : Width) (v : Word) (s : State) : (deviceStore p w v s).wfi = s.wfi := by cases p <;> simp only [deviceStore, sysconStore] <;> (try split) <;> (try split) <;> rfl
@[simp] theorem deviceStore_resvValid (p : StorePort) (w : Width) (v : Word) (s : State) : (deviceStore p w v s).resvValid = s.resvValid := by cases p <;> simp only [deviceStore, sysconStore] <;> (try split) <;> (try split) <;> rfl
@[simp] theorem deviceStore_resvAddr (p : StorePort) (w : Width) (v : Word) (s : State) : (deviceStore p w v s).resvAddr = s.resvAddr := by cases p <;> simp only [deviceStore, sysconStore] <;> (try split) <;> (try split) <;> rfl
@[simp] theorem deviceStore_mstatus (p : StorePort) (w : Width) (v : Word) (s : State) : (deviceStore p w v s).mstatus = s.mstatus := by cases p <;> simp only [deviceStore, sysconStore] <;> (try split) <;> (try split) <;> rfl
@[simp] theorem deviceStore_mtie (p : StorePort) (w : Width) (v : Word) (s : State) : (deviceStore p w v s).mtie = s.mtie := by cases p <;> simp only [deviceStore, sysconStore] <;> (try split) <;> (try split) <;> rfl
@[simp] theorem deviceStore_mtip (p : StorePort) (w : Width) (v : Word) (s : State) : (deviceStore p w v s).mtip = s.mtip := by cases p <;> simp only [deviceStore, sysconStore] <;> (try split) <;> (try split) <;> rfl
@[simp] theorem deviceStore_mtvec (p : StorePort) (w : Width) (v : Word) (s : State) : (deviceStore p w v s).mtvec = s.mtvec := by cases p <;> simp only [deviceStore, sysconStore] <;> (try split) <;> (try split) <;> rfl
@[simp] theorem deviceStore_mscratch (p : StorePort) (w : Width) (v : Word) (s : State) : (deviceStore p w v s).mscratch = s.mscratch := by cases p <;> simp only [deviceStore, sysconStore] <;> (try split) <;> (try split) <;> rfl
@[simp] theorem deviceStore_mepc (p : StorePort) (w : Width) (v : Word) (s : State) : (deviceStore p w v s).mepc = s.mepc := by cases p <;> simp only [deviceStore, sysconStore] <;> (try split) <;> (try split) <;> rfl
@[simp] theorem deviceStore_mcause (p : StorePort) (w : Width) (v : Word) (s : State) : (deviceStore p w v s).mcause = s.mcause := by cases p <;> simp only [deviceStore, sysconStore] <;> (try split) <;> (try split) <;> rfl
@[simp] theorem deviceStore_mtval (p : StorePort) (w : Width) (v : Word) (s : State) : (deviceStore p w v s).mtval = s.mtval := by cases p <;> simp only [deviceStore, sysconStore] <;> (try split) <;> (try split) <;> rfl
@[simp] theorem deviceStore_kbd (p : StorePort) (w : Width) (v : Word) (s : State) : (deviceStore p w v s).kbd = s.kbd := by cases p <;> simp only [deviceStore, sysconStore] <;> (try split) <;> (try split) <;> rfl
@[simp] theorem deviceStore_turns (p : StorePort) (w : Width) (v : Word) (s : State) : (deviceStore p w v s).turns = s.turns := by cases p <;> simp only [deviceStore, sysconStore] <;> (try split) <;> (try split) <;> rfl
@[simp] theorem deviceStore_keyFeed (p : StorePort) (w : Width) (v : Word) (s : State) : (deviceStore p w v s).keyFeed = s.keyFeed := by cases p <;> simp only [deviceStore, sysconStore] <;> (try split) <;> (try split) <;> rfl
@[simp] theorem deviceStore_draws (p : StorePort) (w : Width) (v : Word) (s : State) : (deviceStore p w v s).draws = s.draws := by cases p <;> simp only [deviceStore, sysconStore] <;> (try split) <;> (try split) <;> rfl

/-! ### `csrRead` -/

@[simp] theorem csrRead_cfg (n : CsrNum) (s : State) : ((csrRead n s).2).cfg = s.cfg := by unfold csrRead; split <;> simp
@[simp] theorem csrRead_firmware (n : CsrNum) (s : State) : ((csrRead n s).2).firmware = s.firmware := by unfold csrRead; split <;> simp
@[simp] theorem csrRead_regs (n : CsrNum) (s : State) : ((csrRead n s).2).regs = s.regs := by unfold csrRead; split <;> simp
@[simp] theorem csrRead_pc (n : CsrNum) (s : State) : ((csrRead n s).2).pc = s.pc := by unfold csrRead; split <;> simp
@[simp] theorem csrRead_cycle64 (n : CsrNum) (s : State) : ((csrRead n s).2).cycle64 = s.cycle64 := by unfold csrRead; split <;> simp
@[simp] theorem csrRead_mtime (n : CsrNum) (s : State) : ((csrRead n s).2).mtime = s.mtime := by unfold csrRead; split <;> simp
@[simp] theorem csrRead_mtimecmp (n : CsrNum) (s : State) : ((csrRead n s).2).mtimecmp = s.mtimecmp := by unfold csrRead; split <;> simp
@[simp] theorem csrRead_priv (n : CsrNum) (s : State) : ((csrRead n s).2).priv = s.priv := by unfold csrRead; split <;> simp
@[simp] theorem csrRead_wfi (n : CsrNum) (s : State) : ((csrRead n s).2).wfi = s.wfi := by unfold csrRead; split <;> simp
@[simp] theorem csrRead_resvValid (n : CsrNum) (s : State) : ((csrRead n s).2).resvValid = s.resvValid := by unfold csrRead; split <;> simp
@[simp] theorem csrRead_resvAddr (n : CsrNum) (s : State) : ((csrRead n s).2).resvAddr = s.resvAddr := by unfold csrRead; split <;> simp
@[simp] theorem csrRead_mstatus (n : CsrNum) (s : State) : ((csrRead n s).2).mstatus = s.mstatus := by unfold csrRead; split <;> simp
@[simp] theorem csrRead_mtie (n : CsrNum) (s : State) : ((csrRead n s).2).mtie = s.mtie := by unfold csrRead; split <;> simp
@[simp] theorem csrRead_mtip (n : CsrNum) (s : State) : ((csrRead n s).2).mtip = s.mtip := by unfold csrRead; split <;> simp
@[simp] theorem csrRead_mtvec (n : CsrNum) (s : State) : ((csrRead n s).2).mtvec = s.mtvec := by unfold csrRead; split <;> simp
@[simp] theorem csrRead_mscratch (n : CsrNum) (s : State) : ((csrRead n s).2).mscratch = s.mscratch := by unfold csrRead; split <;> simp
@[simp] theorem csrRead_mepc (n : CsrNum) (s : State) : ((csrRead n s).2).mepc = s.mepc := by unfold csrRead; split <;> simp
@[simp] theorem csrRead_mcause (n : CsrNum) (s : State) : ((csrRead n s).2).mcause = s.mcause := by unfold csrRead; split <;> simp
@[simp] theorem csrRead_mtval (n : CsrNum) (s : State) : ((csrRead n s).2).mtval = s.mtval := by unfold csrRead; split <;> simp
@[simp] theorem csrRead_mem (n : CsrNum) (s : State) : ((csrRead n s).2).mem = s.mem := by unfold csrRead; split <;> simp
@[simp] theorem csrRead_vblank (n : CsrNum) (s : State) : ((csrRead n s).2).vblank = s.vblank := by unfold csrRead; split <;> simp
@[simp] theorem csrRead_present (n : CsrNum) (s : State) : ((csrRead n s).2).present = s.present := by unfold csrRead; split <;> simp
@[simp] theorem csrRead_console (n : CsrNum) (s : State) : ((csrRead n s).2).console = s.console := by unfold csrRead; split <;> simp
@[simp] theorem csrRead_phase (n : CsrNum) (s : State) : ((csrRead n s).2).phase = s.phase := by unfold csrRead; split <;> simp
@[simp] theorem csrRead_turns (n : CsrNum) (s : State) : ((csrRead n s).2).turns = s.turns := by unfold csrRead; split <;> simp

/-! ### `csrWrite` -/

@[simp] theorem csrWrite_cfg (n : CsrNum) (v : Word) (s : State) : (csrWrite n v s).cfg = s.cfg := by unfold csrWrite; split <;> rfl
@[simp] theorem csrWrite_firmware (n : CsrNum) (v : Word) (s : State) : (csrWrite n v s).firmware = s.firmware := by unfold csrWrite; split <;> rfl
@[simp] theorem csrWrite_regs (n : CsrNum) (v : Word) (s : State) : (csrWrite n v s).regs = s.regs := by unfold csrWrite; split <;> rfl
@[simp] theorem csrWrite_pc (n : CsrNum) (v : Word) (s : State) : (csrWrite n v s).pc = s.pc := by unfold csrWrite; split <;> rfl
@[simp] theorem csrWrite_cycle64 (n : CsrNum) (v : Word) (s : State) : (csrWrite n v s).cycle64 = s.cycle64 := by unfold csrWrite; split <;> rfl
@[simp] theorem csrWrite_mtime (n : CsrNum) (v : Word) (s : State) : (csrWrite n v s).mtime = s.mtime := by unfold csrWrite; split <;> rfl
@[simp] theorem csrWrite_mtimecmp (n : CsrNum) (v : Word) (s : State) : (csrWrite n v s).mtimecmp = s.mtimecmp := by unfold csrWrite; split <;> rfl
@[simp] theorem csrWrite_priv (n : CsrNum) (v : Word) (s : State) : (csrWrite n v s).priv = s.priv := by unfold csrWrite; split <;> rfl
@[simp] theorem csrWrite_wfi (n : CsrNum) (v : Word) (s : State) : (csrWrite n v s).wfi = s.wfi := by unfold csrWrite; split <;> rfl
@[simp] theorem csrWrite_resvValid (n : CsrNum) (v : Word) (s : State) : (csrWrite n v s).resvValid = s.resvValid := by unfold csrWrite; split <;> rfl
@[simp] theorem csrWrite_resvAddr (n : CsrNum) (v : Word) (s : State) : (csrWrite n v s).resvAddr = s.resvAddr := by unfold csrWrite; split <;> rfl
@[simp] theorem csrWrite_mtip (n : CsrNum) (v : Word) (s : State) : (csrWrite n v s).mtip = s.mtip := by unfold csrWrite; split <;> rfl
@[simp] theorem csrWrite_mem (n : CsrNum) (v : Word) (s : State) : (csrWrite n v s).mem = s.mem := by unfold csrWrite; split <;> rfl
@[simp] theorem csrWrite_vblank (n : CsrNum) (v : Word) (s : State) : (csrWrite n v s).vblank = s.vblank := by unfold csrWrite; split <;> rfl
@[simp] theorem csrWrite_present (n : CsrNum) (v : Word) (s : State) : (csrWrite n v s).present = s.present := by unfold csrWrite; split <;> rfl
@[simp] theorem csrWrite_kbd (n : CsrNum) (v : Word) (s : State) : (csrWrite n v s).kbd = s.kbd := by unfold csrWrite; split <;> rfl
@[simp] theorem csrWrite_phase (n : CsrNum) (v : Word) (s : State) : (csrWrite n v s).phase = s.phase := by unfold csrWrite; split <;> rfl
@[simp] theorem csrWrite_turns (n : CsrNum) (v : Word) (s : State) : (csrWrite n v s).turns = s.turns := by unfold csrWrite; split <;> rfl
@[simp] theorem csrWrite_keyFeed (n : CsrNum) (v : Word) (s : State) : (csrWrite n v s).keyFeed = s.keyFeed := by unfold csrWrite; split <;> rfl
@[simp] theorem csrWrite_draws (n : CsrNum) (v : Word) (s : State) : (csrWrite n v s).draws = s.draws := by unfold csrWrite; split <;> rfl

/-! ### `State.deliverInterrupt` -/

@[simp] theorem State.deliverInterrupt_cfg (s : State) (budget : Nat) : (s.deliverInterrupt budget).cfg = s.cfg := by unfold State.deliverInterrupt; split <;> rfl
@[simp] theorem State.deliverInterrupt_firmware (s : State) (budget : Nat) : (s.deliverInterrupt budget).firmware = s.firmware := by unfold State.deliverInterrupt; split <;> rfl
@[simp] theorem State.deliverInterrupt_regs (s : State) (budget : Nat) : (s.deliverInterrupt budget).regs = s.regs := by unfold State.deliverInterrupt; split <;> rfl
@[simp] theorem State.deliverInterrupt_cycle64 (s : State) (budget : Nat) : (s.deliverInterrupt budget).cycle64 = s.cycle64 := by unfold State.deliverInterrupt; split <;> rfl
@[simp] theorem State.deliverInterrupt_mtime (s : State) (budget : Nat) : (s.deliverInterrupt budget).mtime = s.mtime := by unfold State.deliverInterrupt; split <;> rfl
@[simp] theorem State.deliverInterrupt_mtimecmp (s : State) (budget : Nat) : (s.deliverInterrupt budget).mtimecmp = s.mtimecmp := by unfold State.deliverInterrupt; split <;> rfl
@[simp] theorem State.deliverInterrupt_wfi (s : State) (budget : Nat) : (s.deliverInterrupt budget).wfi = s.wfi := by unfold State.deliverInterrupt; split <;> rfl
@[simp] theorem State.deliverInterrupt_resvValid (s : State) (budget : Nat) : (s.deliverInterrupt budget).resvValid = s.resvValid := by unfold State.deliverInterrupt; split <;> rfl
@[simp] theorem State.deliverInterrupt_resvAddr (s : State) (budget : Nat) : (s.deliverInterrupt budget).resvAddr = s.resvAddr := by unfold State.deliverInterrupt; split <;> rfl
@[simp] theorem State.deliverInterrupt_mtie (s : State) (budget : Nat) : (s.deliverInterrupt budget).mtie = s.mtie := by unfold State.deliverInterrupt; split <;> rfl
@[simp] theorem State.deliverInterrupt_mtip (s : State) (budget : Nat) : (s.deliverInterrupt budget).mtip = s.mtip := by unfold State.deliverInterrupt; split <;> rfl
@[simp] theorem State.deliverInterrupt_mtvec (s : State) (budget : Nat) : (s.deliverInterrupt budget).mtvec = s.mtvec := by unfold State.deliverInterrupt; split <;> rfl
@[simp] theorem State.deliverInterrupt_mscratch (s : State) (budget : Nat) : (s.deliverInterrupt budget).mscratch = s.mscratch := by unfold State.deliverInterrupt; split <;> rfl
@[simp] theorem State.deliverInterrupt_mem (s : State) (budget : Nat) : (s.deliverInterrupt budget).mem = s.mem := by unfold State.deliverInterrupt; split <;> rfl
@[simp] theorem State.deliverInterrupt_vblank (s : State) (budget : Nat) : (s.deliverInterrupt budget).vblank = s.vblank := by unfold State.deliverInterrupt; split <;> rfl
@[simp] theorem State.deliverInterrupt_present (s : State) (budget : Nat) : (s.deliverInterrupt budget).present = s.present := by unfold State.deliverInterrupt; split <;> rfl
@[simp] theorem State.deliverInterrupt_kbd (s : State) (budget : Nat) : (s.deliverInterrupt budget).kbd = s.kbd := by unfold State.deliverInterrupt; split <;> rfl
@[simp] theorem State.deliverInterrupt_console (s : State) (budget : Nat) : (s.deliverInterrupt budget).console = s.console := by unfold State.deliverInterrupt; split <;> rfl
@[simp] theorem State.deliverInterrupt_turns (s : State) (budget : Nat) : (s.deliverInterrupt budget).turns = s.turns := by unfold State.deliverInterrupt; split <;> rfl
@[simp] theorem State.deliverInterrupt_keyFeed (s : State) (budget : Nat) : (s.deliverInterrupt budget).keyFeed = s.keyFeed := by unfold State.deliverInterrupt; split <;> rfl
@[simp] theorem State.deliverInterrupt_draws (s : State) (budget : Nat) : (s.deliverInterrupt budget).draws = s.draws := by unfold State.deliverInterrupt; split <;> rfl

/-! ### `State.startBatch` -/

@[simp] theorem State.startBatch_cfg (s : State) (elapsed : Word) (budget : Nat) : (s.startBatch elapsed budget).cfg = s.cfg := by unfold State.startBatch; split <;> simp
@[simp] theorem State.startBatch_firmware (s : State) (elapsed : Word) (budget : Nat) : (s.startBatch elapsed budget).firmware = s.firmware := by unfold State.startBatch; split <;> simp
@[simp] theorem State.startBatch_regs (s : State) (elapsed : Word) (budget : Nat) : (s.startBatch elapsed budget).regs = s.regs := by unfold State.startBatch; split <;> simp
@[simp] theorem State.startBatch_cycle64 (s : State) (elapsed : Word) (budget : Nat) : (s.startBatch elapsed budget).cycle64 = s.cycle64 := by unfold State.startBatch; split <;> simp
@[simp] theorem State.startBatch_mtimecmp (s : State) (elapsed : Word) (budget : Nat) : (s.startBatch elapsed budget).mtimecmp = s.mtimecmp := by unfold State.startBatch; split <;> simp
@[simp] theorem State.startBatch_resvValid (s : State) (elapsed : Word) (budget : Nat) : (s.startBatch elapsed budget).resvValid = s.resvValid := by unfold State.startBatch; split <;> simp
@[simp] theorem State.startBatch_resvAddr (s : State) (elapsed : Word) (budget : Nat) : (s.startBatch elapsed budget).resvAddr = s.resvAddr := by unfold State.startBatch; split <;> simp
@[simp] theorem State.startBatch_mtie (s : State) (elapsed : Word) (budget : Nat) : (s.startBatch elapsed budget).mtie = s.mtie := by unfold State.startBatch; split <;> simp
@[simp] theorem State.startBatch_mtvec (s : State) (elapsed : Word) (budget : Nat) : (s.startBatch elapsed budget).mtvec = s.mtvec := by unfold State.startBatch; split <;> simp
@[simp] theorem State.startBatch_mscratch (s : State) (elapsed : Word) (budget : Nat) : (s.startBatch elapsed budget).mscratch = s.mscratch := by unfold State.startBatch; split <;> simp
@[simp] theorem State.startBatch_mem (s : State) (elapsed : Word) (budget : Nat) : (s.startBatch elapsed budget).mem = s.mem := by unfold State.startBatch; split <;> simp
@[simp] theorem State.startBatch_vblank (s : State) (elapsed : Word) (budget : Nat) : (s.startBatch elapsed budget).vblank = s.vblank := by unfold State.startBatch; split <;> simp
@[simp] theorem State.startBatch_present (s : State) (elapsed : Word) (budget : Nat) : (s.startBatch elapsed budget).present = s.present := by unfold State.startBatch; split <;> simp
@[simp] theorem State.startBatch_kbd (s : State) (elapsed : Word) (budget : Nat) : (s.startBatch elapsed budget).kbd = s.kbd := by unfold State.startBatch; split <;> simp
@[simp] theorem State.startBatch_console (s : State) (elapsed : Word) (budget : Nat) : (s.startBatch elapsed budget).console = s.console := by unfold State.startBatch; split <;> simp
@[simp] theorem State.startBatch_turns (s : State) (elapsed : Word) (budget : Nat) : (s.startBatch elapsed budget).turns = s.turns := by unfold State.startBatch; split <;> simp
@[simp] theorem State.startBatch_keyFeed (s : State) (elapsed : Word) (budget : Nat) : (s.startBatch elapsed budget).keyFeed = s.keyFeed := by unfold State.startBatch; split <;> simp
@[simp] theorem State.startBatch_draws (s : State) (elapsed : Word) (budget : Nat) : (s.startBatch elapsed budget).draws = s.draws := by unfold State.startBatch; split <;> simp

/-! ### `sysconStore` -/

@[simp] theorem sysconStore_cfg (w : Width) (v : Word) (s : State) : (sysconStore w v s).cfg = s.cfg := by
  unfold sysconStore; split <;> [rfl; split <;> rfl]
@[simp] theorem sysconStore_firmware (w : Width) (v : Word) (s : State) : (sysconStore w v s).firmware = s.firmware := by
  unfold sysconStore; split <;> [rfl; split <;> rfl]
@[simp] theorem sysconStore_regs (w : Width) (v : Word) (s : State) : (sysconStore w v s).regs = s.regs := by
  unfold sysconStore; split <;> [rfl; split <;> rfl]
@[simp] theorem sysconStore_pc (w : Width) (v : Word) (s : State) : (sysconStore w v s).pc = s.pc := by
  unfold sysconStore; split <;> [rfl; split <;> rfl]
@[simp] theorem sysconStore_cycle64 (w : Width) (v : Word) (s : State) : (sysconStore w v s).cycle64 = s.cycle64 := by
  unfold sysconStore; split <;> [rfl; split <;> rfl]
@[simp] theorem sysconStore_mtime (w : Width) (v : Word) (s : State) : (sysconStore w v s).mtime = s.mtime := by
  unfold sysconStore; split <;> [rfl; split <;> rfl]
@[simp] theorem sysconStore_mtimecmp (w : Width) (v : Word) (s : State) : (sysconStore w v s).mtimecmp = s.mtimecmp := by
  unfold sysconStore; split <;> [rfl; split <;> rfl]
@[simp] theorem sysconStore_priv (w : Width) (v : Word) (s : State) : (sysconStore w v s).priv = s.priv := by
  unfold sysconStore; split <;> [rfl; split <;> rfl]
@[simp] theorem sysconStore_wfi (w : Width) (v : Word) (s : State) : (sysconStore w v s).wfi = s.wfi := by
  unfold sysconStore; split <;> [rfl; split <;> rfl]
@[simp] theorem sysconStore_resvValid (w : Width) (v : Word) (s : State) : (sysconStore w v s).resvValid = s.resvValid := by
  unfold sysconStore; split <;> [rfl; split <;> rfl]
@[simp] theorem sysconStore_resvAddr (w : Width) (v : Word) (s : State) : (sysconStore w v s).resvAddr = s.resvAddr := by
  unfold sysconStore; split <;> [rfl; split <;> rfl]
@[simp] theorem sysconStore_mstatus (w : Width) (v : Word) (s : State) : (sysconStore w v s).mstatus = s.mstatus := by
  unfold sysconStore; split <;> [rfl; split <;> rfl]
@[simp] theorem sysconStore_mtie (w : Width) (v : Word) (s : State) : (sysconStore w v s).mtie = s.mtie := by
  unfold sysconStore; split <;> [rfl; split <;> rfl]
@[simp] theorem sysconStore_mtip (w : Width) (v : Word) (s : State) : (sysconStore w v s).mtip = s.mtip := by
  unfold sysconStore; split <;> [rfl; split <;> rfl]
@[simp] theorem sysconStore_mtvec (w : Width) (v : Word) (s : State) : (sysconStore w v s).mtvec = s.mtvec := by
  unfold sysconStore; split <;> [rfl; split <;> rfl]
@[simp] theorem sysconStore_mscratch (w : Width) (v : Word) (s : State) : (sysconStore w v s).mscratch = s.mscratch := by
  unfold sysconStore; split <;> [rfl; split <;> rfl]
@[simp] theorem sysconStore_mepc (w : Width) (v : Word) (s : State) : (sysconStore w v s).mepc = s.mepc := by
  unfold sysconStore; split <;> [rfl; split <;> rfl]
@[simp] theorem sysconStore_mcause (w : Width) (v : Word) (s : State) : (sysconStore w v s).mcause = s.mcause := by
  unfold sysconStore; split <;> [rfl; split <;> rfl]
@[simp] theorem sysconStore_mtval (w : Width) (v : Word) (s : State) : (sysconStore w v s).mtval = s.mtval := by
  unfold sysconStore; split <;> [rfl; split <;> rfl]
@[simp] theorem sysconStore_vblank (w : Width) (v : Word) (s : State) : (sysconStore w v s).vblank = s.vblank := by
  unfold sysconStore; split <;> [rfl; split <;> rfl]
@[simp] theorem sysconStore_present (w : Width) (v : Word) (s : State) : (sysconStore w v s).present = s.present := by
  unfold sysconStore; split <;> [rfl; split <;> rfl]
@[simp] theorem sysconStore_kbd (w : Width) (v : Word) (s : State) : (sysconStore w v s).kbd = s.kbd := by
  unfold sysconStore; split <;> [rfl; split <;> rfl]
@[simp] theorem sysconStore_console (w : Width) (v : Word) (s : State) : (sysconStore w v s).console = s.console := by
  unfold sysconStore; split <;> [rfl; split <;> rfl]
@[simp] theorem sysconStore_turns (w : Width) (v : Word) (s : State) : (sysconStore w v s).turns = s.turns := by
  unfold sysconStore; split <;> [rfl; split <;> rfl]
@[simp] theorem sysconStore_keyFeed (w : Width) (v : Word) (s : State) : (sysconStore w v s).keyFeed = s.keyFeed := by
  unfold sysconStore; split <;> [rfl; split <;> rfl]
@[simp] theorem sysconStore_draws (w : Width) (v : Word) (s : State) : (sysconStore w v s).draws = s.draws := by
  unfold sysconStore; split <;> [rfl; split <;> rfl]

end Sys2Proof.Machine
end

