-- ==== Sys2Proof/Laws/Memory.lean ====
section
/-! SUPPORT. What the operations of the byte map do: reads after writes, the canonical form kept, the firmware image and the
pixel slice read back. -/

namespace Sys2Proof.Machine

@[simp] theorem Memory.read_nil (a : Nat) : Memory.read [] a = 0 := rfl

theorem Memory.read_cons (k : Nat) (b : Byte) (m : Memory) (a : Nat) :
    Memory.read ((k, b) :: m) a = if k = a then b else Memory.read m a := rfl

theorem Memory.wfFrom_cons {lo k : Nat} {b : Byte} {m : Memory} :
    Memory.wfFrom lo ((k, b) :: m) = true ↔ lo ≤ k ∧ b ≠ 0 ∧ Memory.wfFrom (k + 1) m = true := by
  rw [show Memory.wfFrom lo ((k, b) :: m) = (decide (lo ≤ k) && decide (b ≠ Memory.unlisted) && Memory.wfFrom (k + 1) m)
    from rfl, Bool.and_eq_true, Bool.and_eq_true, decide_eq_true_iff, decide_eq_true_iff, and_assoc]
  rfl

theorem Memory.wfFrom_mono {lo lo' : Nat} {m : Memory} (h : Memory.wfFrom lo m = true) (hl : lo' ≤ lo) :
    Memory.wfFrom lo' m = true := by
  cases m with
  | nil => rfl
  | cons c m =>
    obtain ⟨h1, h2, h3⟩ := Memory.wfFrom_cons.1 h
    exact Memory.wfFrom_cons.2 ⟨by omega, h2, h3⟩

/-- Below its first address a canonical memory lists nothing. -/
theorem Memory.read_below {lo a : Nat} {m : Memory} (h : Memory.wfFrom lo m = true) (ha : a < lo) :
    Memory.read m a = 0 := by
  induction m generalizing lo with
  | nil => rfl
  | cons c m ih =>
    obtain ⟨h1, -, h3⟩ := Memory.wfFrom_cons.1 h
    rw [Memory.read_cons, if_neg (by omega)]
    exact ih h3 (by omega)

/-- A write leaves every other address alone. -/
theorem Memory.read_write_other (m : Memory) {a a' : Nat} (v : Byte) (h : a' ≠ a) :
    Memory.read (Memory.write m a v) a' = Memory.read m a' := by
  induction m with
  | nil => unfold Memory.write; split <;> simp [Memory.read_cons, Ne.symm h]
  | cons c m ih =>
    obtain ⟨k, b⟩ := c
    unfold Memory.write
    split
    · split <;> simp [Memory.read_cons, Ne.symm h]
    · split
      · subst_vars; split <;> simp [Memory.read_cons, Ne.symm h]
      · simp [Memory.read_cons, ih]

theorem Memory.read_write_same_from {lo : Nat} {m : Memory} (h : Memory.wfFrom lo m = true) (a : Nat) (v : Byte) :
    Memory.read (Memory.write m a v) a = v := by
  induction m generalizing lo with
  | nil =>
    unfold Memory.write
    split
    · next hv => rw [hv]; rfl
    · simp [Memory.read_cons]
  | cons c m ih =>
    obtain ⟨k, b⟩ := c
    obtain ⟨-, hb, h3⟩ := Memory.wfFrom_cons.1 h
    unfold Memory.write
    split
    · next hlt =>
      split
      · next hv =>
        rw [hv, Memory.read_cons, if_neg (by omega)]
        exact Memory.read_below h3 (by omega)
      · simp [Memory.read_cons]
    · split
      · next hk =>
        split
        · next hv => rw [hv]; exact Memory.read_below h3 (by omega)
        · simp [Memory.read_cons]
      · next h1 h2 => rw [Memory.read_cons, if_neg (fun e => h2 e.symm)]; exact ih h3

/-- A read after a write to the same address gives the byte written. -/
theorem Memory.read_write_same {m : Memory} (h : m.wf = true) (a : Nat) (v : Byte) :
    Memory.read (Memory.write m a v) a = v := Memory.read_write_same_from h a v

theorem Memory.wfFrom_write {lo : Nat} {m : Memory} (h : Memory.wfFrom lo m = true) {a : Nat} (ha : lo ≤ a) (v : Byte) :
    Memory.wfFrom lo (Memory.write m a v) = true := by
  induction m generalizing lo with
  | nil =>
    unfold Memory.write
    split
    · rfl
    · next hv => exact Memory.wfFrom_cons.2 ⟨ha, hv, rfl⟩
  | cons c m ih =>
    obtain ⟨k, b⟩ := c
    obtain ⟨h1, h2, h3⟩ := Memory.wfFrom_cons.1 h
    unfold Memory.write
    split
    · split
      · exact h
      · next hlt hv => exact Memory.wfFrom_cons.2 ⟨ha, hv, Memory.wfFrom_cons.2 ⟨by omega, h2, h3⟩⟩
    · split
      · next hk =>
        split
        · exact Memory.wfFrom_mono h3 (by omega)
        · next hv => exact Memory.wfFrom_cons.2 ⟨ha, hv, hk ▸ h3⟩
      · exact Memory.wfFrom_cons.2 ⟨h1, h2, ih h3 (by omega)⟩

/-- A write keeps the canonical form. -/
theorem Memory.wf_write {m : Memory} (h : m.wf = true) (a : Nat) (v : Byte) : (Memory.write m a v).wf = true :=
  Memory.wfFrom_write h (Nat.zero_le a) v

/-- What holds of every listed address and of the address written holds after the write. -/
theorem Memory.forall_write {P : Nat → Prop} {m : Memory} (h : ∀ c ∈ m, P c.1) {a : Nat} (ha : P a) (v : Byte) :
    ∀ c ∈ Memory.write m a v, P c.1 := by
  induction m with
  | nil => unfold Memory.write; split <;> simp [ha]
  | cons c m ih =>
    obtain ⟨k, b⟩ := c
    simp only [List.mem_cons, forall_eq_or_imp] at h
    unfold Memory.write
    split
    · split <;> simp only [List.mem_cons, forall_eq_or_imp]
      · exact h
      · exact ⟨ha, h⟩
    · split
      · split
        · exact h.2
        · simp only [List.mem_cons, forall_eq_or_imp]; exact ⟨ha, h.2⟩
      · simp only [List.mem_cons, forall_eq_or_imp]; exact ⟨h.1, ih h.2⟩

theorem Memory.ext_from {lo : Nat} {m m' : Memory} (h : Memory.wfFrom lo m = true) (h' : Memory.wfFrom lo m' = true)
    (e : ∀ a, Memory.read m a = Memory.read m' a) : m = m' := by
  induction m generalizing lo m' with
  | nil =>
    cases m' with
    | nil => rfl
    | cons c' m' =>
      have h1 := (Memory.wfFrom_cons.1 h').2.1
      have := e c'.1
      rw [Memory.read_cons, if_pos rfl] at this
      exact absurd this.symm h1
  | cons c m ih =>
    obtain ⟨k, b⟩ := c
    obtain ⟨h1, h2, h3⟩ := Memory.wfFrom_cons.1 h
    cases m' with
    | nil =>
      have := e k
      simp [Memory.read_cons] at this
      exact absurd this h2
    | cons c' m' =>
      obtain ⟨k', b'⟩ := c'
      obtain ⟨h1', h2', h3'⟩ := Memory.wfFrom_cons.1 h'
      have hk : k = k' := by
        rcases Nat.lt_trichotomy k k' with hlt | heq | hgt
        · have := e k
          rw [Memory.read_cons, if_pos rfl, Memory.read_cons, if_neg (by omega),
            Memory.read_below h3' (by omega)] at this
          exact absurd this h2
        · exact heq
        · have := e k'
          rw [Memory.read_cons, if_neg (by omega), Memory.read_below h3 (by omega), Memory.read_cons,
            if_pos rfl] at this
          exact absurd this.symm h2'
      subst hk
      have hb : b = b' := by simpa [Memory.read_cons] using e k
      subst hb
      congr 1
      refine ih h3 h3' fun a => ?_
      by_cases ha : k = a
      · subst ha; rw [Memory.read_below h3 (by omega), Memory.read_below h3' (by omega)]
      · simpa [Memory.read_cons, ha] using e a

/-- Two canonical memories with the same byte everywhere are the same data. -/
theorem Memory.ext {m m' : Memory} (h : m.wf = true) (h' : m'.wf = true)
    (e : ∀ a, Memory.read m a = Memory.read m' a) : m = m' := Memory.ext_from h h' e

/-! ### Accesses of several bytes -/

/-- A store of `n` bytes keeps the canonical form. -/
theorem Memory.wf_writeLE {m : Memory} (h : m.wf = true) (a n : Nat) (v : Word) : (Memory.writeLE m a n v).wf = true := by
  induction n generalizing m a v with
  | zero => exact h
  | succ n ih => exact ih (Memory.wf_write h a _) (a + 1) (v >>> 8)

theorem Memory.forall_writeLE {P : Nat → Prop} {m : Memory} (h : ∀ c ∈ m, P c.1) {a n : Nat}
    (ha : ∀ k < n, P (a + k)) (v : Word) : ∀ c ∈ Memory.writeLE m a n v, P c.1 := by
  induction n generalizing m a v with
  | zero => exact h
  | succ n ih =>
    refine ih (Memory.forall_write h (ha 0 (by omega)) _) (fun k hk => ?_) (v >>> 8)
    have := ha (k + 1) (by omega)
    rwa [show a + 1 + k = a + (k + 1) by omega]

/-- A store of `n` bytes leaves every byte outside them alone. -/
theorem Memory.read_writeLE_outside (m : Memory) {a n a' : Nat} (v : Word) (h : a' < a ∨ a + n ≤ a') :
    Memory.read (Memory.writeLE m a n v) a' = Memory.read m a' := by
  induction n generalizing m a v with
  | zero => rfl
  | succ n ih =>
    show Memory.read (Memory.writeLE (Memory.write m a _) (a + 1) n _) a' = _
    rw [ih _ _ (by omega), Memory.read_write_other _ _ (by omega)]

/-- Byte `a + k` of a store of `n` bytes holds bits `8k+7` to `8k` of the value. -/
theorem Memory.read_writeLE_inside {m : Memory} (h : m.wf = true) (a : Nat) {n k : Nat} (v : Word) (hk : k < n) :
    Memory.read (Memory.writeLE m a n v) (a + k) = v.extractLsb' (8 * k) 8 := by
  induction n generalizing m a v k with
  | zero => omega
  | succ n ih =>
    show Memory.read (Memory.writeLE (Memory.write m a _) (a + 1) n _) (a + k) = _
    cases k with
    | zero =>
      rw [Memory.read_writeLE_outside _ _ (by omega), Nat.add_zero, Memory.read_write_same h]
      ext i hi
      simp
    | succ k =>
      rw [show a + (k + 1) = a + 1 + k by omega, ih (Memory.wf_write h a _) _ _ (by omega)]
      ext i hi
      simp
      congr 1
      omega

/-- The value of a read of two memories that agree on its bytes. -/
theorem Memory.readLE_congr {m m' : Memory} {a n : Nat} (h : ∀ k < n, Memory.read m (a + k) = Memory.read m' (a + k)) :
    Memory.readLE m a n = Memory.readLE m' a n := by
  induction n generalizing a with
  | zero => rfl
  | succ n ih =>
    have h0 := h 0 (by omega)
    simp only [Memory.readLE, Nat.add_zero] at h0 ⊢
    rw [h0, ih fun k hk => ?_]
    have := h (k + 1) (by omega)
    rwa [show a + 1 + k = a + (k + 1) by omega]

/-- A read of one byte. -/
theorem Memory.readLE_one (m : Memory) (a : Nat) : Memory.readLE m a 1 = (Memory.read m a).setWidth 32 := by
  simp [Memory.readLE]

/-- A read of two bytes composes them little-endian. -/
theorem Memory.readLE_two (m : Memory) (a : Nat) :
    Memory.readLE m a 2 = (Memory.read m (a + 1) ++ Memory.read m a).setWidth 32 := by
  ext i hi
  simp [Memory.readLE, BitVec.getElem_setWidth]
  grind

/-- A read of four bytes composes them little-endian. -/
theorem Memory.readLE_four (m : Memory) (a : Nat) :
    Memory.readLE m a 4 =
      Memory.read m (a + 3) ++ Memory.read m (a + 2) ++ Memory.read m (a + 1) ++ Memory.read m a := by
  ext i hi
  simp [Memory.readLE]
  grind

/-! ### The firmware image and the pixel slice -/

theorem Memory.wfFrom_ofImage (a : Nat) (bytes : List Byte) : Memory.wfFrom a (Memory.ofImage a bytes) = true := by
  induction bytes generalizing a with
  | nil => rfl
  | cons b bytes ih =>
    unfold Memory.ofImage
    split
    · exact Memory.wfFrom_mono (ih (a + 1)) (by omega)
    · next hb => exact Memory.wfFrom_cons.2 ⟨Nat.le_refl a, hb, ih (a + 1)⟩

/-- The image is in canonical form. -/
theorem Memory.wf_ofImage (a : Nat) (bytes : List Byte) : (Memory.ofImage a bytes).wf = true :=
  Memory.wfFrom_mono (Memory.wfFrom_ofImage a bytes) (Nat.zero_le a)

/-- The image lists no address outside its bytes. -/
theorem Memory.mem_ofImage {a : Nat} {bytes : List Byte} :
    ∀ c ∈ Memory.ofImage a bytes, a ≤ c.1 ∧ c.1 < a + bytes.length := by
  induction bytes generalizing a with
  | nil => simp [Memory.ofImage]
  | cons b bytes ih =>
    have step : ∀ c ∈ Memory.ofImage (a + 1) bytes, a ≤ c.1 ∧ c.1 < a + (b :: bytes).length := by
      intro c hc
      have := ih c hc
      simp only [List.length_cons]
      omega
    unfold Memory.ofImage
    split
    · exact step
    · simp only [List.mem_cons, forall_eq_or_imp]
      exact ⟨by simp, step⟩

/-- Byte `k` of the image stands at address `a + k`, and past the image every byte is zero. -/
theorem Memory.read_ofImage (a k : Nat) (bytes : List Byte) :
    Memory.read (Memory.ofImage a bytes) (a + k) = bytes.getD k 0 := by
  induction bytes generalizing a k with
  | nil => rfl
  | cons b bytes ih =>
    cases k with
    | zero =>
      unfold Memory.ofImage
      split
      · next hb => simpa [hb, Memory.unlisted] using Memory.read_below (Memory.wfFrom_ofImage (a + 1) bytes) (by omega)
      · simp [Memory.read_cons]
    | succ k =>
      have := ih (a + 1) k
      rw [show a + 1 + k = a + (k + 1) by omega] at this
      unfold Memory.ofImage
      split
      · simpa using this
      · simpa [Memory.read_cons] using this

/-- Below the image every byte is zero. -/
theorem Memory.read_ofImage_below {a a' : Nat} (bytes : List Byte) (h : a' < a) :
    Memory.read (Memory.ofImage a bytes) a' = 0 := Memory.read_below (Memory.wfFrom_ofImage a bytes) h

theorem Memory.slice_nil (lo size : Nat) : Memory.slice [] lo size = [] := rfl

theorem Memory.slice_cons (k : Nat) (b : Byte) (m : Memory) (lo size : Nat) :
    Memory.slice ((k, b) :: m) lo size =
      if lo ≤ k ∧ k < lo + size then (k - lo, b) :: Memory.slice m lo size else Memory.slice m lo size := by
  simp only [Memory.slice, List.filter_cons]
  split <;> split <;> simp_all

/-- Byte `k` of a slice is the byte at `lo + k`, and a slice holds nothing past its size. -/
theorem Memory.read_slice (m : Memory) (lo size k : Nat) :
    Memory.read (Memory.slice m lo size) k = if k < size then Memory.read m (lo + k) else 0 := by
  induction m with
  | nil => simp [Memory.slice_nil]
  | cons c m ih =>
    obtain ⟨j, b⟩ := c
    rw [Memory.slice_cons]
    split
    · next h =>
      rw [Memory.read_cons, Memory.read_cons, ih]
      by_cases hj : j - lo = k
      · rw [if_pos hj, if_pos (by omega), if_pos (by omega)]
      · rw [if_neg hj]
        split
        · rw [if_neg (by omega)]
        · rfl
    · next h =>
      rw [ih, Memory.read_cons]
      split
      · rw [if_neg (by omega)]
      · rfl

theorem Memory.wfFrom_slice {from_ lo size : Nat} {m : Memory} (h : Memory.wfFrom from_ m = true) :
    Memory.wfFrom (from_ - lo) (Memory.slice m lo size) = true := by
  induction m generalizing from_ with
  | nil => rfl
  | cons c m ih =>
    obtain ⟨h1, h2, h3⟩ := Memory.wfFrom_cons.1 h
    rw [Memory.slice_cons]
    split
    · next hk => exact Memory.wfFrom_cons.2 ⟨by omega, h2, Memory.wfFrom_mono (ih h3) (by omega)⟩
    · exact Memory.wfFrom_mono (ih h3) (by omega)

/-- A slice of a canonical memory is canonical. -/
theorem Memory.wf_slice {m : Memory} (h : m.wf = true) (lo size : Nat) : (Memory.slice m lo size).wf = true :=
  Memory.wfFrom_mono (Memory.wfFrom_slice h) (Nat.zero_le _)

/-- A slice lists only indexes below its size. -/
theorem Memory.mem_slice {m : Memory} {lo size : Nat} : ∀ c ∈ Memory.slice m lo size, c.1 < size := by
  intro c hc
  simp only [Memory.slice, List.mem_map, List.mem_filter, Bool.and_eq_true, decide_eq_true_eq] at hc
  obtain ⟨x, ⟨-, h1, h2⟩, rfl⟩ := hc
  show x.1 - lo < size
  omega

end Sys2Proof.Machine
end

