-- ==== Sys2Proof/Laws/Ops.lean ====
section
/-! SUPPORT. One lemma for each thing the shared operations over memory, devices and traps can do: the regions, the checks of an
access, what `MemRead` and `MemWrite` answer, the ports under a legal configuration. -/

namespace Sys2Proof.Machine

/-! ### Regions (R201) -/

theorem region_eq_ram {c : Config} {a : Word} :
    region c a = .ram ↔ c.ramBase.toNat ≤ a.toNat ∧ a.toNat < c.ramBase.toNat + c.ramSize.toNat := by
  unfold region
  split
  · simp_all
  · split <;> simp_all

theorem region_eq_mmio {c : Config} {a : Word} :
    region c a = .mmio ↔ ¬ (c.ramBase.toNat ≤ a.toNat ∧ a.toNat < c.ramBase.toNat + c.ramSize.toNat) ∧
      c.mmioBase.toNat ≤ a.toNat ∧ a.toNat < c.mmioBase.toNat + c.mmioSize.toNat := by
  unfold region
  split
  · simp_all
  · split <;> simp_all

/-- An aligned access to a mapped region stays inside it: every region boundary is a multiple of 4 (R207). -/
theorem region_span {c : Config} (hc : c.Valid) {a : Word} {w : Width} (ha : a.toNat % w.bytes = 0)
    (hr : region c a ≠ .unmapped) {k : Nat} (hk : k < w.bytes) :
    (c.ramBase.toNat ≤ a.toNat + k ∧ a.toNat + k < c.ramEnd) ∨
      (c.mmioBase.toNat ≤ a.toNat + k ∧ a.toNat + k < c.mmioEnd) := by
  obtain ⟨⟨h1, h2, h3, h4, -, -, -⟩, -⟩ := hc
  show (_ ∧ _ < c.ramBase.toNat + c.ramSize.toNat) ∨ (_ ∧ _ < c.mmioBase.toNat + c.mmioSize.toNat)
  have h : region c a = .ram ∨ region c a = .mmio := by
    cases h : region c a <;> simp_all
  rw [region_eq_ram, region_eq_mmio] at h
  rcases h with ⟨ha1, ha2⟩ | ⟨-, ha1, ha2⟩
  · left
    cases w <;> simp only [Width.bytes] at ha hk <;> omega
  · right
    cases w <;> simp only [Width.bytes] at ha hk <;> omega

/-! ### The checks of an access (R206, R207, R257) -/

theorem readCheck_eq_none {c : Config} {a : Word} {w : Width} {k : ReadKind} :
    readCheck c a w k = none ↔ a.toNat % w.bytes = 0 ∧ k.reaches (region c a) = true := by
  unfold readCheck
  split
  · simp_all
  · split <;> simp_all

theorem writeCheck_eq_none {c : Config} {a : Word} {w : Width} {k : WriteKind} :
    writeCheck c a w k = none ↔ a.toNat % w.bytes = 0 ∧ k.reaches (region c a) = true := by
  unfold writeCheck
  split
  · simp_all
  · split <;> simp_all

theorem readCheck_misaligned {c : Config} {a : Word} {w : Width} (k : ReadKind) (h : a.toNat % w.bytes ≠ 0) :
    readCheck c a w k = some (k.misaligned a) := if_pos h

theorem readCheck_unreached {c : Config} {a : Word} {w : Width} {k : ReadKind} (h : a.toNat % w.bytes = 0)
    (hr : k.reaches (region c a) = false) : readCheck c a w k = some (k.accessFault a) := by
  unfold readCheck
  rw [if_neg (by simpa using h), if_neg (by simp [hr])]

theorem writeCheck_misaligned {c : Config} {a : Word} {w : Width} (k : WriteKind) (h : a.toNat % w.bytes ≠ 0) :
    writeCheck c a w k = some (.storeAddrMisaligned a) := if_pos h

theorem writeCheck_unreached {c : Config} {a : Word} {w : Width} {k : WriteKind} (h : a.toNat % w.bytes = 0)
    (hr : k.reaches (region c a) = false) : writeCheck c a w k = some (.storeAccessFault a) := by
  unfold writeCheck
  rw [if_neg (by simpa using h), if_neg (by simp [hr])]

theorem ReadKind.reaches_ram (k : ReadKind) : k.reaches .ram = true := by cases k <;> rfl

theorem WriteKind.reaches_ram (k : WriteKind) : k.reaches .ram = true := by cases k <;> rfl

theorem ReadKind.reaches_mapped {k : ReadKind} {r : Region} (h : k.reaches r = true) : r ≠ .unmapped := by
  rintro rfl
  cases k <;> simp [ReadKind.reaches] at h

theorem WriteKind.reaches_mapped {k : WriteKind} {r : Region} (h : k.reaches r = true) : r ≠ .unmapped := by
  rintro rfl
  cases k <;> simp [WriteKind.reaches] at h

/-! ### MemRead and MemWrite (R230, R234) -/

/-- A read answers an exception exactly as its check says. -/
theorem memRead_error {a : Word} {w : Width} {k : ReadKind} {s : State} {e : Exception} :
    memRead a w k s = .error e ↔ readCheck s.cfg a w k = some e := by
  unfold memRead
  split <;> simp_all

/-- Everything a read that answers a value can have done: it was aligned, its region is reached, and either plain bytes were
read with no effect, or a device answered. -/
theorem memRead_ok {a : Word} {w : Width} {k : ReadKind} {s s' : State} {v : Word} (h : memRead a w k s = .ok (v, s')) :
    a.toNat % w.bytes = 0 ∧ k.reaches (region s.cfg a) = true ∧
      ((v = s.loadBytes a w ∧ s' = s ∧ (region s.cfg a = .ram ∨ loadPort s.cfg a = none)) ∨
        ∃ p, k = .load ∧ region s.cfg a = .mmio ∧ loadPort s.cfg a = some p ∧ v = w.trunc (deviceLoad p s).1 ∧
          s' = (deviceLoad p s).2) := by
  unfold memRead at h
  split at h
  · cases h
  · next hc =>
    obtain ⟨h1, h2⟩ := readCheck_eq_none.1 hc
    refine ⟨h1, h2, ?_⟩
    injection h with h
    unfold readValue at h
    have hk : region s.cfg a = .mmio → k = .load := by
      intro hr
      rw [hr] at h2
      cases k <;> simp_all [ReadKind.reaches]
    split at h
    · next hr =>
      injection h with hv hs
      exact .inl ⟨hv.symm, hs.symm, .inl hr⟩
    · next hr =>
      split at h
      · next p hp =>
        injection h with hv hs
        exact .inr ⟨p, hk hr, hr, hp, hv.symm, hs.symm⟩
      · next hp =>
        injection h with hv hs
        exact .inl ⟨hv.symm, hs.symm, .inr hp⟩
    · next hr => exact absurd hr (ReadKind.reaches_mapped h2)

/-- A read that reaches plain bytes. -/
theorem memRead_bytes {a : Word} {w : Width} {k : ReadKind} {s : State} (ha : a.toNat % w.bytes = 0)
    (hr : k.reaches (region s.cfg a) = true) (hp : region s.cfg a = .ram ∨ loadPort s.cfg a = none) :
    memRead a w k s = .ok (s.loadBytes a w, s) := by
  unfold memRead
  rw [readCheck_eq_none.2 ⟨ha, hr⟩]
  show Except.ok (readValue a w s) = _
  unfold readValue
  split
  · rfl
  · next h => rcases hp with hp | hp <;> simp_all
  · next h => exact absurd h (ReadKind.reaches_mapped hr)

/-- A load that the dispatcher intercepts. -/
theorem memRead_port {a : Word} {w : Width} {s : State} {p : LoadPort} (ha : a.toNat % w.bytes = 0)
    (hr : region s.cfg a = .mmio) (hp : loadPort s.cfg a = some p) :
    memRead a w .load s = .ok (w.trunc (deviceLoad p s).1, (deviceLoad p s).2) := by
  unfold memRead
  rw [readCheck_eq_none.2 ⟨ha, by rw [hr]; rfl⟩]
  show Except.ok (readValue a w s) = _
  unfold readValue
  rw [hr, hp]

/-- A write answers an exception exactly as its check says. -/
theorem memWrite_error {a : Word} {w : Width} {v : Word} {k : WriteKind} {s : State} {e : Exception} :
    memWrite a w v k s = .error e ↔ writeCheck s.cfg a w k = some e := by
  unfold memWrite
  split <;> simp_all

/-- Everything a write that is performed can have done: it was aligned, its region is reached, and either plain bytes were
written, or a device acted. -/
theorem memWrite_ok {a : Word} {w : Width} {v : Word} {k : WriteKind} {s s' : State} (h : memWrite a w v k s = .ok s') :
    a.toNat % w.bytes = 0 ∧ k.reaches (region s.cfg a) = true ∧
      ((s' = s.storeBytes a w v ∧ (region s.cfg a = .ram ∨ storePort s.cfg a = none)) ∨
        ∃ p, k = .store ∧ region s.cfg a = .mmio ∧ storePort s.cfg a = some p ∧ s' = deviceStore p w v s) := by
  unfold memWrite at h
  split at h
  · cases h
  · next hc =>
    obtain ⟨h1, h2⟩ := writeCheck_eq_none.1 hc
    refine ⟨h1, h2, ?_⟩
    injection h with h
    unfold writeValue at h
    have hk : region s.cfg a = .mmio → k = .store := by
      intro hr
      rw [hr] at h2
      cases k <;> simp_all [WriteKind.reaches]
    split at h
    · next hr => exact .inl ⟨h.symm, .inl hr⟩
    · next hr =>
      split at h
      · next p hp => exact .inr ⟨p, hk hr, hr, hp, h.symm⟩
      · next hp => exact .inl ⟨h.symm, .inr hp⟩
    · next hr => exact absurd hr (WriteKind.reaches_mapped h2)

/-- A write that reaches plain bytes. -/
theorem memWrite_bytes {a : Word} {w : Width} {v : Word} {k : WriteKind} {s : State} (ha : a.toNat % w.bytes = 0)
    (hr : k.reaches (region s.cfg a) = true) (hp : region s.cfg a = .ram ∨ storePort s.cfg a = none) :
    memWrite a w v k s = .ok (s.storeBytes a w v) := by
  unfold memWrite
  rw [writeCheck_eq_none.2 ⟨ha, hr⟩]
  show Except.ok (writeValue a w v s) = _
  unfold writeValue
  split
  · rfl
  · next h => rcases hp with hp | hp <;> simp_all
  · next h => exact absurd h (WriteKind.reaches_mapped hr)

/-- A store that the dispatcher intercepts. -/
theorem memWrite_port {a : Word} {w : Width} {v : Word} {s : State} {p : StorePort} (ha : a.toNat % w.bytes = 0)
    (hr : region s.cfg a = .mmio) (hp : storePort s.cfg a = some p) :
    memWrite a w v .store s = .ok (deviceStore p w v s) := by
  unfold memWrite
  rw [writeCheck_eq_none.2 ⟨ha, by rw [hr]; rfl⟩]
  show Except.ok (writeValue a w v s) = _
  unfold writeValue
  rw [hr, hp]

/-- The fetch of an aligned pc in RAM reads the word there; any other aligned pc is an access fault (R209, R701). -/
theorem State.fetch_ram {s : State} (ha : s.pc.toNat % 4 = 0) (hr : region s.cfg s.pc = .ram) :
    s.fetch = .ok (s.loadBytes s.pc .word) := by
  unfold State.fetch
  rw [memRead_bytes ha (by rw [hr]; rfl) (.inl hr)]

theorem State.fetch_fault {s : State} (ha : s.pc.toNat % 4 = 0) (hr : region s.cfg s.pc ≠ .ram) :
    s.fetch = .error (.instrAccessFault s.pc) := by
  unfold State.fetch
  have hf : ReadKind.fetch.reaches (region s.cfg s.pc) = false := by
    cases h : region s.cfg s.pc <;> simp_all [ReadKind.reaches]
  rw [memRead_error.2 (readCheck_unreached (w := .word) ha hf)]
  rfl

/-- What a fetch depends on. -/
theorem State.fetch_congr {s t : State} (hc : t.cfg = s.cfg) (hp : t.pc = s.pc) (hm : t.mem = s.mem) : t.fetch = s.fetch := by
  have h : ∀ u : State, u.fetch = match readCheck u.cfg u.pc .word .fetch with
      | some e => .error e
      | none => .ok (u.loadBytes u.pc .word) := by
    intro u
    unfold State.fetch
    cases hr : readCheck u.cfg u.pc .word .fetch with
    | some e => rw [memRead_error.2 hr]
    | none =>
      obtain ⟨h1, h2⟩ := readCheck_eq_none.1 hr
      have : region u.cfg u.pc = .ram := by
        cases h : region u.cfg u.pc <;> simp_all [ReadKind.reaches]
      rw [memRead_bytes h1 h2 (.inl this)]
  rw [h s, h t, hc, hp]
  unfold State.loadBytes
  rw [hm]

/-! ### Bytes of an access -/

/-- The value of an access, byte by byte (R204). -/
theorem State.loadBytes_byte (s : State) (a : Word) : s.loadBytes a .byte = (Memory.read s.mem a.toNat).setWidth 32 :=
  Memory.readLE_one _ _

theorem State.loadBytes_half (s : State) (a : Word) :
    s.loadBytes a .half = (Memory.read s.mem (a.toNat + 1) ++ Memory.read s.mem a.toNat).setWidth 32 :=
  Memory.readLE_two _ _

theorem State.loadBytes_word (s : State) (a : Word) :
    s.loadBytes a .word = Memory.read s.mem (a.toNat + 3) ++ Memory.read s.mem (a.toNat + 2) ++
      Memory.read s.mem (a.toNat + 1) ++ Memory.read s.mem a.toNat :=
  Memory.readLE_four _ _

/-- A word read where a word was stored is that word (R204, R222). -/
theorem State.loadBytes_storeBytes {s : State} (h : s.mem.wf = true) (a v : Word) :
    (s.storeBytes a .word v).loadBytes a .word = v := by
  rw [State.loadBytes_word]
  have hb : ∀ k < 4, Memory.read (s.storeBytes a .word v).mem (a.toNat + k) = v.extractLsb' (8 * k) 8 := fun k hk =>
    Memory.read_writeLE_inside h a.toNat v hk
  have h0 := hb 0 (by omega)
  rw [Nat.add_zero] at h0
  rw [hb 3 (by omega), hb 2 (by omega), hb 1 (by omega), h0]
  ext i hi
  simp
  grind

/-! ### The dispatcher's addresses (R240) -/

/-- A device register's address does not wrap, and lies in the MMIO window, not in RAM (R13). -/
theorem device_address {c : Config} (hc : c.Valid) {off : Word} (ho : off.toNat ∈ c.deviceOffsets) :
    (c.mmioBase + off).toNat = c.mmioBase.toNat + off.toNat ∧ region c (c.mmioBase + off) = .mmio := by
  obtain ⟨⟨-, -, -, -, -, -, h1⟩, h2, ⟨h3, -, -⟩, -⟩ := hc
  replace h1 : c.mmioBase.toNat + c.mmioSize.toNat ≤ 2 ^ 32 := h1
  replace h2 : c.ramBase.toNat + c.ramSize.toNat ≤ c.mmioBase.toNat := h2
  have h4 := h3 _ ho
  have e : (c.mmioBase + off).toNat = c.mmioBase.toNat + off.toNat := by
    rw [BitVec.toNat_add, Nat.mod_eq_of_lt (by omega)]
  refine ⟨e, region_eq_mmio.2 ?_⟩
  rw [e]
  omega

/-- Two device registers of a legal configuration have different addresses (R13). -/
theorem device_distinct {c : Config} (hc : c.Valid) {i j : Nat} (hi : i < 9) (hj : j < 9) (hne : i ≠ j) {x y : Word}
    (hx : c.deviceOffsets[i]? = some x.toNat) (hy : c.deviceOffsets[j]? = some y.toNat) :
    c.mmioBase + x ≠ c.mmioBase + y := by
  intro e
  have hxy : x = y := by simpa using e
  subst hxy
  obtain ⟨-, -, -, -, ⟨hn, -⟩, -⟩ := hc
  exact hne ((List.Nodup.getElem_inj_iff (h := hn) (hi := hi) (hj := hj)).1
    (Option.some.inj (by rw [← List.getElem?_eq_getElem, ← List.getElem?_eq_getElem, hx, hy])))

/-! ### The canonical form of memory -/

/-- A store to plain bytes keeps the canonical form. -/
theorem State.wf_storeBytes {s : State} (h : s.mem.wf = true) (a : Word) (w : Width) (v : Word) :
    (s.storeBytes a w v).mem.wf = true := Memory.wf_writeLE h _ _ _

/-- A device's action on a store keeps the canonical form of memory. -/
theorem wf_deviceStore {s : State} (h : s.mem.wf = true) (p : StorePort) (w : Width) (v : Word) :
    (deviceStore p w v s).mem.wf = true := by
  cases p with
  | uartData | cmpLo | cmpHi | swap => exact h
  | syscon =>
    show (sysconStore w v s).mem.wf = true
    unfold sysconStore
    split
    · exact h
    · split
      · exact h
      · exact State.wf_storeBytes h _ _ _

/-- A device's action on a store keeps the canonical form of the presentation buffer. -/
theorem wf_deviceStore_present {s : State} (h : s.mem.wf = true) (hp : s.present.wf = true) (p : StorePort) (w : Width)
    (v : Word) : (deviceStore p w v s).present.wf = true := by
  cases p with
  | uartData | cmpLo | cmpHi => exact hp
  | swap => exact Memory.wf_slice h _ _
  | syscon =>
    show (sysconStore w v s).present.wf = true
    simpa using hp

/-- `MemWrite` keeps the canonical form. -/
theorem wf_memWrite {a : Word} {w : Width} {v : Word} {k : WriteKind} {s s' : State} (hm : s.mem.wf = true)
    (h : memWrite a w v k s = .ok s') : s'.mem.wf = true := by
  obtain ⟨-, -, ⟨rfl, -⟩ | ⟨p, -, -, -, rfl⟩⟩ := memWrite_ok h
  · exact State.wf_storeBytes hm _ _ _
  · exact wf_deviceStore hm p w v

/-- `MemRead` keeps the canonical form: no read changes memory. -/
theorem wf_memRead {a : Word} {w : Width} {k : ReadKind} {s s' : State} {v : Word} (hm : s.mem.wf = true)
    (h : memRead a w k s = .ok (v, s')) : s'.mem.wf = true := by
  obtain ⟨-, -, ⟨-, rfl, -⟩ | ⟨p, -, -, -, -, rfl⟩⟩ := memRead_ok h
  · exact hm
  · simpa using hm

/-- Placing an instruction's word keeps the canonical form. -/
theorem State.wf_placeWord {s : State} (h : s.mem.wf = true) (w : Word) : (s.placeWord w).mem.wf = true :=
  State.wf_storeBytes h _ _ _

end Sys2Proof.Machine
end

