-- ==== Sys2Proof/Laws/Devices.lean ====
section
/-! SUPPORT. The MMIO dispatcher under a legal configuration: each intercepted address has its port and no other has one (R240). -/

namespace Sys2Proof.Machine

/-- The register offset of an intercepted load. -/
def LoadPort.offset (c : Config) : LoadPort → Word
  | .uartData => c.uartDataOff
  | .uartStatus => c.uartLsrOff
  | .cmpLo => c.clintCmpLoOff
  | .cmpHi => c.clintCmpHiOff
  | .timeLo => c.clintTimeLoOff
  | .timeHi => c.clintTimeHiOff
  | .vblank => c.fbVblankOff

/-- The register offset of an intercepted store. -/
def StorePort.offset (c : Config) : StorePort → Word
  | .uartData => c.uartDataOff
  | .cmpLo => c.clintCmpLoOff
  | .cmpHi => c.clintCmpHiOff
  | .swap => c.fbSwapOff
  | .syscon => c.sysconOff

/-- An intercepted load is at its port's address, in any configuration. -/
theorem loadPort_address {c : Config} {a : Word} {p : LoadPort} (h : loadPort c a = some p) : a = c.mmioBase + p.offset c := by
  unfold loadPort at h
  split_ifs at h <;> (injection h with h; subst h; assumption)

/-- An intercepted store is at its port's address, in any configuration. -/
theorem storePort_address {c : Config} {a : Word} {p : StorePort} (h : storePort c a = some p) :
    a = c.mmioBase + p.offset c := by
  unfold storePort at h
  split_ifs at h <;> (injection h with h; subst h; assumption)

/-- A load is not intercepted exactly at the addresses outside the table. -/
theorem loadPort_eq_none {c : Config} {a : Word} : loadPort c a = none ↔ ∀ p : LoadPort, a ≠ c.mmioBase + p.offset c := by
  constructor
  · intro h p e
    unfold loadPort at h
    split_ifs at h
    cases p <;> contradiction
  · intro h
    cases hp : loadPort c a with
    | none => rfl
    | some p => exact absurd (loadPort_address hp) (h p)

/-- A store is not intercepted exactly at the addresses outside the table. -/
theorem storePort_eq_none {c : Config} {a : Word} : storePort c a = none ↔ ∀ p : StorePort, a ≠ c.mmioBase + p.offset c := by
  constructor
  · intro h p e
    unfold storePort at h
    split_ifs at h
    cases p <;> contradiction
  · intro h
    cases hp : storePort c a with
    | none => rfl
    | some p => exact absurd (storePort_address hp) (h p)

/-- The place of a load port's register among the nine device registers. -/
def LoadPort.index : LoadPort → Fin 9
  | .uartData => 0
  | .uartStatus => 1
  | .cmpLo => 2
  | .cmpHi => 3
  | .timeLo => 4
  | .timeHi => 5
  | .vblank => 7

/-- The place of a store port's register among the nine device registers. -/
def StorePort.index : StorePort → Fin 9
  | .uartData => 0
  | .cmpLo => 2
  | .cmpHi => 3
  | .swap => 8
  | .syscon => 6

theorem LoadPort.offset_index (c : Config) (p : LoadPort) : c.deviceOffsets[p.index] = (p.offset c).toNat := by cases p <;> rfl

theorem StorePort.offset_index (c : Config) (p : StorePort) : c.deviceOffsets[p.index] = (p.offset c).toNat := by cases p <;> rfl

/-- Registers at two places have two addresses. -/
theorem device_ne {c : Config} (hc : c.Valid) {i j : Fin 9} (hne : i ≠ j) {x y : Word} (hx : c.deviceOffsets[i] = x.toNat)
    (hy : c.deviceOffsets[j] = y.toNat) : c.mmioBase + x ≠ c.mmioBase + y :=
  device_distinct hc i.isLt j.isLt (fun e => hne (Fin.ext e))
    ((List.getElem?_eq_getElem i.isLt).trans (congrArg some hx))
    ((List.getElem?_eq_getElem j.isLt).trans (congrArg some hy))

/-- Every port's load is intercepted at its own address. -/
theorem loadPort_offset {c : Config} (hc : c.Valid) (p : LoadPort) : loadPort c (c.mmioBase + p.offset c) = some p := by
  cases h : loadPort c (c.mmioBase + p.offset c) with
  | none => exact absurd rfl (loadPort_eq_none.1 h p)
  | some q =>
    by_contra hne
    have hi : p.index ≠ q.index := by
      intro e
      apply hne
      cases p <;> cases q <;> first | rfl | cases e
    exact device_ne hc hi (p.offset_index c) (q.offset_index c) (loadPort_address h)

/-- Every port's store is intercepted at its own address. -/
theorem storePort_offset {c : Config} (hc : c.Valid) (p : StorePort) : storePort c (c.mmioBase + p.offset c) = some p := by
  cases h : storePort c (c.mmioBase + p.offset c) with
  | none => exact absurd rfl (storePort_eq_none.1 h p)
  | some q =>
    by_contra hne
    have hi : p.index ≠ q.index := by
      intro e
      apply hne
      cases p <;> cases q <;> first | rfl | cases e
    exact device_ne hc hi (p.offset_index c) (q.offset_index c) (storePort_address h)

/-- The load ports lie in the MMIO window. -/
theorem LoadPort.region {c : Config} (hc : c.Valid) (p : LoadPort) : Sys2Proof.Machine.region c (c.mmioBase + p.offset c) = .mmio :=
  (device_address hc (by rw [← p.offset_index c]; exact List.getElem_mem _)).2

/-- The store ports lie in the MMIO window. -/
theorem StorePort.region {c : Config} (hc : c.Valid) (p : StorePort) :
    Sys2Proof.Machine.region c (c.mmioBase + p.offset c) = .mmio :=
  (device_address hc (by rw [← p.offset_index c]; exact List.getElem_mem _)).2

end Sys2Proof.Machine
end

