-- ==== Sys2Proof/Laws/Registers.lean ====
section
/-! SUPPORT. The register file: reads after writes, x0, and what an instruction that only writes a register leaves unchanged. -/

namespace Sys2Proof.Machine

/-- x0 reads zero in every state (R101). -/
@[simp] theorem State.x_zero (s : State) : s.x 0 = 0 := rfl

/-- A register's value depends on the register file alone. -/
theorem State.x_congr {s t : State} (h : t.regs = s.regs) (r : Reg) : t.x r = s.x r := by
  unfold State.x
  rw [h]

/-- A read after a write. -/
theorem State.x_setX (s : State) (i r : Reg) (v : Word) :
    (s.setX i v).x r = if r = 0 then 0 else if r = i then v else s.x r := by
  unfold State.setX State.x
  by_cases hr : r = 0
  · rw [if_pos hr, if_pos hr]
  · rw [if_neg hr, if_neg hr, if_neg hr]
    by_cases hi : i = 0
    · rw [if_pos hi, if_neg fun e => hr (e.trans hi)]
    · by_cases h : r = i
      · subst h
        simp only [if_neg hi, if_true, Vector.getElem_set_self]
      · have hn : i.toNat ≠ r.toNat := fun e => h (BitVec.eq_of_toNat_eq e.symm)
        simp only [if_neg hi, if_neg h, Vector.getElem_set_ne _ _ hn]

/-- A write to x0 writes nothing (R101). -/
@[simp] theorem State.setX_zero (s : State) (v : Word) : s.setX 0 v = s := rfl

/-- A register write changes the register file alone. -/
theorem State.setX_eq (s : State) (i : Reg) (v : Word) : s.setX i v = { s with regs := (s.setX i v).regs } := by
  unfold State.setX
  split <;> rfl

/-- The register file's own slot for x0 is never written. -/
@[simp] theorem State.setX_slot_zero (s : State) (i : Reg) (v : Word) : (s.setX i v).regs[0] = s.regs[0] := by
  unfold State.setX
  split
  · rfl
  · next h =>
    have hn : i.toNat ≠ 0 := fun e => h (BitVec.eq_of_toNat_eq e)
    simp [Vector.getElem_set_ne _ _ hn]

/-- Reads after an instruction has completed with `x[rd] <- v`. -/
theorem State.x_retire (s : State) (rd r : Reg) (v : Word) :
    (s.retire rd v).x r = if r = 0 then 0 else if r = rd then v else s.x r := by
  rw [← s.x_setX]
  exact State.x_congr rfl r

/-- An instruction that completes with `x[rd] <- v` changes the register file and the pc alone. -/
theorem State.retire_eq (s : State) (rd : Reg) (v : Word) :
    s.retire rd v = { s with regs := (s.retire rd v).regs, pc := s.pc + 4 } := by
  unfold State.retire State.advance State.setPc State.setX
  split <;> rfl

/-- With `rd` = x0 nothing but the pc changes. -/
theorem State.retire_zero (s : State) (v : Word) : s.retire 0 v = s.advance := rfl

end Sys2Proof.Machine
end

