-- ==== Sys2Proof/Laws/Exec.lean ====
section
/-! SUPPORT. What an instruction can do: one shape of next state for each shared operation, and the lemma that every instruction
answers one of them. Rules of the whole machine follow by cases on the shape, with no meaning unfolded again. -/

namespace Sys2Proof.Machine

/-- The three store instructions. -/
abbrev IsStore (i : Instr) (w : Width) (rs1 rs2 : Reg) (imm : BitVec 12) : Prop :=
  (i = .sb rs1 rs2 imm ∧ w = .byte) ∨ (i = .sh rs1 rs2 imm ∧ w = .half) ∨ (i = .sw rs1 rs2 imm ∧ w = .word)

/-- The six CSR instructions. -/
abbrev IsCsr (i : Instr) (rd src : Reg) (n : CsrNum) : Prop :=
  i = .csrrw rd src n ∨ i = .csrrs rd src n ∨ i = .csrrc rd src n ∨ i = .csrrwi rd src n ∨ i = .csrrsi rd src n ∨
    i = .csrrci rd src n

/-- The state between the read and the write of a CSR instruction. -/
def afterCsrRead (n : CsrNum) (reads : Bool) (s : State) : State := if reads then (csrRead n s).2 else s

/-- The state after the write of a CSR instruction. -/
def afterCsrWrite (n : CsrNum) (reads writes : Bool) (v : Word) (s : State) : State :=
  if writes then csrWrite n v (afterCsrRead n reads s) else afterCsrRead n reads s

/-! What no CSR instruction changes but through `x[rd]` and the pc. -/

@[simp] theorem afterCsrWrite_cfg (n : CsrNum) (reads writes : Bool) (v : Word) (s : State) :
    (afterCsrWrite n reads writes v s).cfg = s.cfg := by
  cases reads <;> cases writes <;> simp [afterCsrWrite, afterCsrRead]
@[simp] theorem afterCsrWrite_firmware (n : CsrNum) (reads writes : Bool) (v : Word) (s : State) :
    (afterCsrWrite n reads writes v s).firmware = s.firmware := by
  cases reads <;> cases writes <;> simp [afterCsrWrite, afterCsrRead]
@[simp] theorem afterCsrWrite_regs (n : CsrNum) (reads writes : Bool) (v : Word) (s : State) :
    (afterCsrWrite n reads writes v s).regs = s.regs := by
  cases reads <;> cases writes <;> simp [afterCsrWrite, afterCsrRead]
@[simp] theorem afterCsrWrite_pc (n : CsrNum) (reads writes : Bool) (v : Word) (s : State) :
    (afterCsrWrite n reads writes v s).pc = s.pc := by
  cases reads <;> cases writes <;> simp [afterCsrWrite, afterCsrRead]
@[simp] theorem afterCsrWrite_cycle64 (n : CsrNum) (reads writes : Bool) (v : Word) (s : State) :
    (afterCsrWrite n reads writes v s).cycle64 = s.cycle64 := by
  cases reads <;> cases writes <;> simp [afterCsrWrite, afterCsrRead]
@[simp] theorem afterCsrWrite_mtime (n : CsrNum) (reads writes : Bool) (v : Word) (s : State) :
    (afterCsrWrite n reads writes v s).mtime = s.mtime := by
  cases reads <;> cases writes <;> simp [afterCsrWrite, afterCsrRead]
@[simp] theorem afterCsrWrite_mtimecmp (n : CsrNum) (reads writes : Bool) (v : Word) (s : State) :
    (afterCsrWrite n reads writes v s).mtimecmp = s.mtimecmp := by
  cases reads <;> cases writes <;> simp [afterCsrWrite, afterCsrRead]
@[simp] theorem afterCsrWrite_priv (n : CsrNum) (reads writes : Bool) (v : Word) (s : State) :
    (afterCsrWrite n reads writes v s).priv = s.priv := by
  cases reads <;> cases writes <;> simp [afterCsrWrite, afterCsrRead]
@[simp] theorem afterCsrWrite_wfi (n : CsrNum) (reads writes : Bool) (v : Word) (s : State) :
    (afterCsrWrite n reads writes v s).wfi = s.wfi := by
  cases reads <;> cases writes <;> simp [afterCsrWrite, afterCsrRead]
@[simp] theorem afterCsrWrite_resvValid (n : CsrNum) (reads writes : Bool) (v : Word) (s : State) :
    (afterCsrWrite n reads writes v s).resvValid = s.resvValid := by
  cases reads <;> cases writes <;> simp [afterCsrWrite, afterCsrRead]
@[simp] theorem afterCsrWrite_resvAddr (n : CsrNum) (reads writes : Bool) (v : Word) (s : State) :
    (afterCsrWrite n reads writes v s).resvAddr = s.resvAddr := by
  cases reads <;> cases writes <;> simp [afterCsrWrite, afterCsrRead]
@[simp] theorem afterCsrWrite_mtip (n : CsrNum) (reads writes : Bool) (v : Word) (s : State) :
    (afterCsrWrite n reads writes v s).mtip = s.mtip := by
  cases reads <;> cases writes <;> simp [afterCsrWrite, afterCsrRead]
@[simp] theorem afterCsrWrite_mem (n : CsrNum) (reads writes : Bool) (v : Word) (s : State) :
    (afterCsrWrite n reads writes v s).mem = s.mem := by
  cases reads <;> cases writes <;> simp [afterCsrWrite, afterCsrRead]
@[simp] theorem afterCsrWrite_vblank (n : CsrNum) (reads writes : Bool) (v : Word) (s : State) :
    (afterCsrWrite n reads writes v s).vblank = s.vblank := by
  cases reads <;> cases writes <;> simp [afterCsrWrite, afterCsrRead]
@[simp] theorem afterCsrWrite_present (n : CsrNum) (reads writes : Bool) (v : Word) (s : State) :
    (afterCsrWrite n reads writes v s).present = s.present := by
  cases reads <;> cases writes <;> simp [afterCsrWrite, afterCsrRead]
@[simp] theorem afterCsrWrite_phase (n : CsrNum) (reads writes : Bool) (v : Word) (s : State) :
    (afterCsrWrite n reads writes v s).phase = s.phase := by
  cases reads <;> cases writes <;> simp [afterCsrWrite, afterCsrRead]
@[simp] theorem afterCsrWrite_turns (n : CsrNum) (reads writes : Bool) (v : Word) (s : State) :
    (afterCsrWrite n reads writes v s).turns = s.turns := by
  cases reads <;> cases writes <;> simp [afterCsrWrite, afterCsrRead]

/-- The states an instruction can lead to from `s`. -/
inductive Effect (s : State) : Instr → State → Prop
  | trap (i : Instr) (e : Exception) : Effect s i (s.takeException e)
  | retire {i : Instr} {rd : Reg} (v : Word) (hd : i.destination = some rd) : Effect s i (s.retire rd v)
  | jump {i : Instr} {rd : Reg} {t : Word} (hd : i.destination = some rd) (ht : WordAligned t) :
      Effect s i ((s.setX rd (s.pc + 4)).setPc t)
  | move {t : Word} (i : Instr) (ht : t = s.pc + 4 ∨ WordAligned t) : Effect s i (s.setPc t)
  | loadDevice {i : Instr} {rd : Reg} (p : LoadPort) (v : Word) (hd : i.destination = some rd) :
      Effect s i ((deviceLoad p s).2.retire rd v)
  | store {i : Instr} {w : Width} {rs1 rs2 : Reg} {imm : BitVec 12} (hi : IsStore i w rs1 rs2 imm)
      (ha : (s.effectiveAddr rs1 imm).toNat % w.bytes = 0) (hr : region s.cfg (s.effectiveAddr rs1 imm) ≠ .unmapped) :
      Effect s i (s.storeBytes (s.effectiveAddr rs1 imm) w (s.x rs2)).advance
  | storeDevice {i : Instr} {w : Width} {rs1 rs2 : Reg} {imm : BitVec 12} {p : StorePort} (hi : IsStore i w rs1 rs2 imm)
      (ha : (s.effectiveAddr rs1 imm).toNat % w.bytes = 0) (hr : region s.cfg (s.effectiveAddr rs1 imm) = .mmio)
      (hp : storePort s.cfg (s.effectiveAddr rs1 imm) = some p) :
      Effect s i (deviceStore p w (s.x rs2) s).advance
  | reserve (rd rs1 : Reg) (aq rl : Bool) (v : Word) :
      Effect s (.lrW rd rs1 aq rl) ((s.reserve (s.x rs1)).retire rd v)
  | scStore {rd rs1 rs2 : Reg} {aq rl : Bool} (ha : (s.x rs1).toNat % 4 = 0) (hr : region s.cfg (s.x rs1) = .ram)
      (hv : s.reserved (s.x rs1) = true) :
      Effect s (.scW rd rs1 rs2 aq rl) ((s.clearReservation.storeBytes (s.x rs1) .word (s.x rs2)).retire rd 0)
  | scFail (rd rs1 rs2 : Reg) (aq rl : Bool) : Effect s (.scW rd rs1 rs2 aq rl) (s.clearReservation.retire rd 1)
  | amo {i : Instr} {rd : Reg} {a : Word} (v : Word) (hd : i.destination = some rd) (ha : a.toNat % 4 = 0)
      (hr : region s.cfg a = .ram) : Effect s i ((s.storeBytes a .word v).retire rd (s.loadBytes a .word))
  | mret (hp : s.priv = .machine) : Effect s .mret s.trapReturn
  | wait (hw : s.wakes = false) : Effect s .wfi ({ s.advance with wfi := true }.endBatch .idle)
  | csr {i : Instr} {rd src : Reg} {n : CsrNum} {reads writes : Bool} (old v : Word) (hi : IsCsr i rd src n)
      (hl : csrLegal s.priv n writes = true) : Effect s i ((afterCsrWrite n reads writes v s).retire rd old)

/-! ### The shared operations -/

/-- A jump. -/
theorem jumpTo_effect {i : Instr} {rd : Reg} (hd : i.destination = some rd) (t : Word) (s : State) :
    ∃ u, jumpTo t rd s = .next u ∧ Effect s i u := by
  unfold jumpTo checkTarget
  split
  · next h => split at h <;> cases h; exact ⟨_, rfl, .trap _ _⟩
  · next h =>
    split at h
    · next ha => cases h; exact ⟨_, rfl, .jump hd ha⟩
    · cases h

/-- A branch. -/
theorem branchIf_effect (i : Instr) (cond : Word → Word → Bool) (rs1 rs2 : Reg) (off : BitVec 13) (s : State) :
    ∃ u, branchIf cond rs1 rs2 off s = .next u ∧ Effect s i u := by
  unfold branchIf checkTarget
  split
  · split
    · next h => split at h <;> cases h; exact ⟨_, rfl, .trap _ _⟩
    · next h =>
      split at h
      · next ha => cases h; exact ⟨_, rfl, .move _ (.inr ha)⟩
      · cases h
  · exact ⟨_, rfl, .move _ (.inl rfl)⟩

/-- A load. -/
theorem loadInto_effect {i : Instr} {rd : Reg} (hd : i.destination = some rd) (w : Width) (ext : Word → Word) (rs1 : Reg)
    (imm : BitVec 12) (s : State) : ∃ u, loadInto w ext rd rs1 imm s = .next u ∧ Effect s i u := by
  unfold loadInto
  split
  · exact ⟨_, rfl, .trap _ _⟩
  · next h =>
    refine ⟨_, rfl, ?_⟩
    obtain ⟨-, -, ⟨-, rfl, -⟩ | ⟨p, -, -, -, -, rfl⟩⟩ := memRead_ok h
    · exact .retire _ hd
    · exact .loadDevice p _ hd

/-- A store. -/
theorem storeFrom_effect {i : Instr} {w : Width} {rs1 rs2 : Reg} {imm : BitVec 12} (hi : IsStore i w rs1 rs2 imm)
    (s : State) : ∃ u, storeFrom w rs1 rs2 imm s = .next u ∧ Effect s i u := by
  unfold storeFrom
  split
  · exact ⟨_, rfl, .trap _ _⟩
  · next h =>
    refine ⟨_, rfl, ?_⟩
    obtain ⟨ha, hr, ⟨rfl, -⟩ | ⟨p, -, hm, hp, rfl⟩⟩ := memWrite_ok h
    · exact .store hi ha (WriteKind.reaches_mapped hr)
    · exact .storeDevice hi ha hm hp

/-- An AMO. -/
theorem amoWith_effect {i : Instr} {rd : Reg} (hd : i.destination = some rd) (op : Word → Word → Word) (rs1 rs2 : Reg)
    (s : State) : ∃ u, amoWith op rd rs1 rs2 s = .next u ∧ Effect s i u := by
  unfold amoWith
  split
  · exact ⟨_, rfl, .trap _ _⟩
  · next h =>
    obtain ⟨ha, hr, ⟨rfl, hs, -⟩ | ⟨p, hk, -⟩⟩ := memRead_ok h
    · have hram : region s.cfg (s.x rs1) = .ram := by
        cases hh : region s.cfg (s.x rs1) <;> simp_all [ReadKind.reaches]
      rw [hs, memWrite_bytes ha (by rw [hram]; rfl) (.inl hram)]
      exact ⟨_, rfl, .amo _ hd ha hram⟩
    · cases hk

/-- LR.W. -/
theorem execLrW_effect (rd rs1 : Reg) (aq rl : Bool) (s : State) :
    ∃ u, execLrW rd rs1 aq rl s = .next u ∧ Effect s (.lrW rd rs1 aq rl) u := by
  unfold execLrW
  split
  · exact ⟨_, rfl, .trap _ _⟩
  · next h =>
    obtain ⟨-, -, ⟨rfl, rfl, -⟩ | ⟨p, hk, -⟩⟩ := memRead_ok h
    · exact ⟨_, rfl, .reserve ..⟩
    · cases hk

/-- SC.W. -/
theorem execScW_effect (rd rs1 rs2 : Reg) (aq rl : Bool) (s : State) :
    ∃ u, execScW rd rs1 rs2 aq rl s = .next u ∧ Effect s (.scW rd rs1 rs2 aq rl) u := by
  unfold execScW
  split
  · exact ⟨_, rfl, .trap _ _⟩
  · next h =>
    obtain ⟨ha, hr⟩ := writeCheck_eq_none.1 h
    have hram : region s.cfg (s.x rs1) = .ram := by
      cases hh : region s.cfg (s.x rs1) <;> simp_all [WriteKind.reaches]
    split
    · next hv =>
      refine ⟨_, rfl, ?_⟩
      have : writeValue (s.x rs1) .word (s.x rs2) s.clearReservation =
          s.clearReservation.storeBytes (s.x rs1) .word (s.x rs2) := by
        unfold writeValue
        rw [show region s.clearReservation.cfg (s.x rs1) = .ram from hram]
      rw [this]
      exact .scStore ha hram hv
    · exact ⟨_, rfl, .scFail ..⟩

/-- MRET in each mode. -/
theorem execMret_user {s : State} (h : s.priv = .user) :
    exec .mret s = .next (s.takeException (.illegalInstruction (encode .mret))) := by
  show execMret s = _
  unfold execMret raise
  rw [h]

theorem execMret_machine {s : State} (h : s.priv = .machine) : exec .mret s = .next s.trapReturn := by
  show execMret s = _
  unfold execMret
  rw [h]

/-- A CSR instruction. -/
theorem csrAccess_effect {i : Instr} {rd src : Reg} {n : CsrNum} (hi : IsCsr i rd src n) (inst : Word) (reads writes : Bool)
    (new : Word → Word) (s : State) : ∃ u, csrAccess inst n rd reads writes new s = .next u ∧ Effect s i u := by
  unfold csrAccess
  split
  · next hl =>
    refine ⟨_, rfl, ?_⟩
    cases reads
    · exact Effect.csr (reads := false) (writes := writes) _ _ hi hl
    · exact Effect.csr (reads := true) (writes := writes) _ _ hi hl
  · exact ⟨_, rfl, .trap _ _⟩

/-! ### Every instruction -/

/-- Every instruction goes on, to one of the states that `Effect` lists. -/
theorem exec_effect (i : Instr) (s : State) : ∃ t, exec i s = .next t ∧ Effect s i t := by
  cases i with
  | lui | auipc | addi | slti | sltiu | xori | ori | andi | slli | srli | srai | add | sub | sll | slt | sltu | xor | srl
  | sra | or | and | mul | mulh | mulhsu | mulhu | div | divu | rem | remu => exact ⟨_, rfl, .retire _ rfl⟩
  | jal | jalr => exact jumpTo_effect rfl _ s
  | beq rs1 rs2 off => exact branchIf_effect _ (fun a b => a == b) rs1 rs2 off s
  | bne rs1 rs2 off => exact branchIf_effect _ (fun a b => a != b) rs1 rs2 off s
  | blt rs1 rs2 off => exact branchIf_effect _ (fun a b => a.slt b) rs1 rs2 off s
  | bge rs1 rs2 off => exact branchIf_effect _ (fun a b => !a.slt b) rs1 rs2 off s
  | bltu rs1 rs2 off => exact branchIf_effect _ (fun a b => a.ult b) rs1 rs2 off s
  | bgeu rs1 rs2 off => exact branchIf_effect _ (fun a b => !a.ult b) rs1 rs2 off s
  | lb | lh | lw | lbu | lhu => exact loadInto_effect rfl _ _ _ _ s
  | sb => exact storeFrom_effect (.inl ⟨rfl, rfl⟩) s
  | sh => exact storeFrom_effect (.inr (.inl ⟨rfl, rfl⟩)) s
  | sw => exact storeFrom_effect (.inr (.inr ⟨rfl, rfl⟩)) s
  | lrW rd rs1 aq rl => exact execLrW_effect rd rs1 aq rl s
  | scW rd rs1 rs2 aq rl => exact execScW_effect rd rs1 rs2 aq rl s
  | amoswapW rd rs1 rs2 => exact amoWith_effect (rd := rd) rfl (fun _ b => b) rs1 rs2 s
  | amoaddW rd rs1 rs2 => exact amoWith_effect (rd := rd) rfl (fun old b => old + b) rs1 rs2 s
  | amoxorW rd rs1 rs2 => exact amoWith_effect (rd := rd) rfl (fun old b => old ^^^ b) rs1 rs2 s
  | amoandW rd rs1 rs2 => exact amoWith_effect (rd := rd) rfl (fun old b => old &&& b) rs1 rs2 s
  | amoorW rd rs1 rs2 => exact amoWith_effect (rd := rd) rfl (fun old b => old ||| b) rs1 rs2 s
  | amominW rd rs1 rs2 => exact amoWith_effect (rd := rd) rfl minSigned rs1 rs2 s
  | amomaxW rd rs1 rs2 => exact amoWith_effect (rd := rd) rfl maxSigned rs1 rs2 s
  | amominuW rd rs1 rs2 => exact amoWith_effect (rd := rd) rfl minUnsigned rs1 rs2 s
  | amomaxuW rd rs1 rs2 => exact amoWith_effect (rd := rd) rfl maxUnsigned rs1 rs2 s
  | fence | fenceI => exact ⟨_, rfl, .move _ (.inl rfl)⟩
  | ecall =>
    show ∃ t, execEcall s = _ ∧ _
    unfold execEcall
    split <;> exact ⟨_, rfl, .trap _ _⟩
  | ebreak => exact ⟨_, rfl, .trap _ _⟩
  | mret =>
    cases h : s.priv with
    | user => exact ⟨s.takeException (.illegalInstruction (encode .mret)), execMret_user h, .trap .mret _⟩
    | machine => exact ⟨s.trapReturn, execMret_machine h, .mret h⟩
  | wfi =>
    show ∃ t, execWfi s = _ ∧ _
    unfold execWfi
    split
    · exact ⟨_, rfl, .move _ (.inl rfl)⟩
    · next h => exact ⟨_, rfl, .wait (by simpa using h)⟩
  | csrrw rd src n =>
    exact csrAccess_effect (.inl rfl) (encode (.csrrw rd src n))
      (rd != 0) true (fun _ => s.x src) s
  | csrrs rd src n =>
    exact csrAccess_effect (.inr (.inl rfl)) (encode (.csrrs rd src n))
      true (src != 0) (fun old => old ||| s.x src) s
  | csrrc rd src n =>
    exact csrAccess_effect (.inr (.inr (.inl rfl))) (encode (.csrrc rd src n))
      true (src != 0) (fun old => old &&& ~~~ s.x src) s
  | csrrwi rd src n =>
    exact csrAccess_effect (.inr (.inr (.inr (.inl rfl)))) (encode (.csrrwi rd src n))
      (rd != 0) true (fun _ => unsigned5 src) s
  | csrrsi rd src n =>
    exact csrAccess_effect (.inr (.inr (.inr (.inr (.inl rfl))))) (encode (.csrrsi rd src n))
      true (src != 0) (fun old => old ||| unsigned5 src) s
  | csrrci rd src n =>
    exact csrAccess_effect (.inr (.inr (.inr (.inr (.inr rfl))))) (encode (.csrrci rd src n))
      true (src != 0) (fun old => old &&& ~~~ unsigned5 src) s

/-- The next state of an instruction is one that `Effect` lists. -/
theorem effect_of_exec {i : Instr} {s t : State} (h : exec i s = .next t) : Effect s i t := by
  obtain ⟨u, hu, he⟩ := exec_effect i s
  rw [hu] at h
  injection h with h
  exact h ▸ he

end Sys2Proof.Machine
end

