-- ==== Sys2Proof/Laws/Step.lean ====
section
/-! SUPPORT. What a step can do: the four kinds of step, the host's turns, and that a step runs the instruction it decodes. -/

namespace Sys2Proof.Machine

/-! ### One instruction (R701) -/

/-- The count of `cycle64` and the use of the budget do not change what is fetched. -/
@[simp] theorem State.beginInstr_fetch (s : State) (n : Nat) : (s.beginInstr n).fetch = s.fetch :=
  State.fetch_congr rfl rfl rfl

theorem runInstr_eq_exec {s : State} {w : Word} {i : Instr} (hf : s.fetch = .ok w) (hd : decode w = .ok i) :
    runInstr s = exec i s := by
  unfold runInstr
  rw [hf]
  show (match decode w with | .ok i => exec i s | .error _ => raise (.illegalInstruction w) s) = _
  rw [hd]

theorem runInstr_fault {s : State} {e : Exception} (hf : s.fetch = .error e) : runInstr s = .next (s.takeException e) := by
  unfold runInstr
  rw [hf]
  rfl

theorem runInstr_illegal {s : State} {w : Word} {e : DecodeReject} (hf : s.fetch = .ok w) (hd : decode w = .error e) :
    runInstr s = .next (s.takeException (.illegalInstruction w)) := by
  unfold runInstr
  rw [hf]
  show (match decode w with | .ok i => exec i s | .error _ => raise (.illegalInstruction w) s) = _
  rw [hd]
  rfl

/-- The instruction cycle: a fetch or decode that fails raises, else the instruction runs. -/
theorem runInstr_cases (s : State) :
    (∃ e, runInstr s = .next (s.takeException e)) ∨ ∃ w i, s.fetch = .ok w ∧ decode w = .ok i ∧ runInstr s = exec i s := by
  cases hf : s.fetch with
  | error e => exact .inl ⟨e, runInstr_fault hf⟩
  | ok w =>
    cases hd : decode w with
    | error e => exact .inl ⟨_, runInstr_illegal hf hd⟩
    | ok i => exact .inr ⟨w, i, rfl, hd, runInstr_eq_exec hf hd⟩

/-! ### The kinds of step (R760) -/

theorem step_running {s : State} {n : Nat} (h : s.phase = .running (n + 1)) : step s = runInstr (s.beginInstr n) := by
  unfold step
  rw [h]

theorem step_budget {s : State} (h : s.phase = .running 0) : step s = .next (s.endBatch .continues) := by
  unfold step
  rw [h]

theorem step_first {s : State} (h : s.phase = .ready none) : step s = .next (hostFirstCall s) := by
  unfold step
  rw [h]

theorem step_call {s : State}
    (h : s.phase = .rebooted ∨ s.phase = .ready (some .continues) ∨ s.phase = .ready (some .idle)) :
    step s = .next (hostCall s) := by
  unfold step
  rcases h with h | h | h <;> rw [h]

theorem step_restart {s : State} (h : s.phase = .ready (some .restart)) : step s = .next (hostRestart s) := by
  unfold step
  rw [h]

/-- A step begins the instruction it decodes, and is that instruction's meaning once it has begun. -/
theorem step_begins {s : State} {n : Nat} {w : Word} {i : Instr} (h : s.phase = .running (n + 1)) (hf : s.fetch = .ok w)
    (hd : decode w = .ok i) : step s = exec i (s.beginInstr n) := by
  rw [step_running h]
  exact runInstr_eq_exec (by simpa using hf) hd

/-- Everything a step that goes on can have done: an instruction began, and the fetch or decode raised or its meaning ran; the
budget was used up; the host had its turn before the first call, between two calls, or after a restart. -/
theorem step_cases {s t : State} (h : step s = .next t) :
    (∃ n, s.phase = .running (n + 1) ∧
      ((∃ e, t = (s.beginInstr n).takeException e) ∨ ∃ i, Begins s i ∧ Effect (s.beginInstr n) i t)) ∨
    (s.phase = .running 0 ∧ t = s.endBatch .continues) ∨
    (s.phase = .ready none ∧ t = hostFirstCall s) ∨
    ((s.phase = .rebooted ∨ s.phase = .ready (some .continues) ∨ s.phase = .ready (some .idle)) ∧ t = hostCall s) ∨
    (s.phase = .ready (some .restart) ∧ t = hostRestart s) := by
  cases hp : s.phase with
  | running left =>
    cases left with
    | succ n =>
      refine .inl ⟨n, rfl, ?_⟩
      rw [step_running hp] at h
      rcases runInstr_cases (s.beginInstr n) with ⟨e, he⟩ | ⟨w, i, hf, hd, he⟩
      · rw [he] at h
        injection h with h
        exact .inl ⟨e, h.symm⟩
      · rw [he] at h
        exact .inr ⟨i, ⟨n, w, hp, by simpa using hf, hd⟩, effect_of_exec h⟩
    | zero =>
      rw [step_budget hp] at h
      injection h with h
      exact .inr (.inl ⟨rfl, h.symm⟩)
  | ready last =>
    rcases last with _ | r
    · rw [step_first hp] at h
      injection h with h
      exact .inr (.inr (.inl ⟨rfl, h.symm⟩))
    · cases r with
      | continues =>
        rw [step_call (.inr (.inl hp))] at h
        injection h with h
        exact .inr (.inr (.inr (.inl ⟨.inr (.inl rfl), h.symm⟩)))
      | idle =>
        rw [step_call (.inr (.inr hp))] at h
        injection h with h
        exact .inr (.inr (.inr (.inl ⟨.inr (.inr rfl), h.symm⟩)))
      | restart =>
        rw [step_restart hp] at h
        injection h with h
        exact .inr (.inr (.inr (.inr ⟨rfl, h.symm⟩)))
      | fatal | poweroff =>
        unfold step at h
        rw [hp] at h
        cases h
  | rebooted =>
    rw [step_call (.inl hp)] at h
    injection h with h
    exact .inr (.inr (.inr (.inl ⟨.inl rfl, h.symm⟩)))
  | stopped =>
    unfold step at h
    rw [hp] at h
    cases h

/-! ### The host's turns (R770) -/

/-- The first turn of the host: a stop is passed over, or it calls and does not set `vblank`. -/
theorem hostFirstCall_cases (s : State) :
    (s.nextTurn = .stop ∧ hostFirstCall s = s.dropTurn) ∨
      ∃ setVblank elapsed budget, s.nextTurn = .call setVblank elapsed budget ∧
        hostFirstCall s = s.dropTurn.startBatch elapsed budget := by
  unfold hostFirstCall
  cases s.nextTurn with
  | call setVblank elapsed budget => exact .inr ⟨setVblank, elapsed, budget, rfl, rfl⟩
  | stop => exact .inl ⟨rfl, rfl⟩

/-- The turn of the host between two calls: it stops, or it calls. -/
theorem hostCall_cases (s : State) :
    hostCall s = { s.dropTurn with phase := .stopped } ∨
      ∃ setVblank elapsed budget, s.nextTurn = .call setVblank elapsed budget ∧
        hostCall s = (s.dropTurn.hostVblank setVblank).startBatch elapsed budget := by
  unfold hostCall
  cases s.nextTurn with
  | call setVblank elapsed budget => exact .inr ⟨setVblank, elapsed, budget, rfl, rfl⟩
  | stop => exact .inl rfl

/-- The turn of the host after a restart: it stops, or it resets. -/
theorem hostRestart_cases (s : State) :
    (s.nextTurn = .stop ∧ hostRestart s = { s.dropTurn with phase := .stopped }) ∨
      hostRestart s = { s.resetAll with phase := .rebooted } := by
  unfold hostRestart
  cases s.nextTurn with
  | call setVblank elapsed budget => exact .inr rfl
  | stop => exact .inl ⟨rfl, rfl⟩

/-- The start of a batch call: the hart still waits, the interrupt is taken, or the instructions begin. -/
theorem State.startBatch_cases (s : State) (elapsed : Word) (budget : Nat) :
    (((s.updateTimer elapsed).releaseWait.wfi = true ∧
        s.startBatch elapsed budget = (s.updateTimer elapsed).releaseWait.endBatch .idle) ∨
      (s.updateTimer elapsed).releaseWait.wfi = false ∧ (s.updateTimer elapsed).releaseWait.interruptDue = true ∧
        s.startBatch elapsed budget =
          ((s.updateTimer elapsed).releaseWait.trapEntry timerCause 0 s.pc).endBatch .continues) ∨
      (s.updateTimer elapsed).releaseWait.wfi = false ∧ (s.updateTimer elapsed).releaseWait.interruptDue = false ∧
        s.startBatch elapsed budget = { (s.updateTimer elapsed).releaseWait with phase := .running budget } := by
  unfold State.startBatch State.deliverInterrupt
  split
  · next h => exact .inl (.inl ⟨h, rfl⟩)
  · next h =>
    have h' : (s.updateTimer elapsed).releaseWait.wfi = false := by simpa using h
    split
    · next hi => exact .inl (.inr ⟨h', hi, by simp⟩)
    · next hi => exact .inr ⟨h', by simpa using hi, rfl⟩

end Sys2Proof.Machine
end

