-- ==== Sys2Proof/Tests/Slice0.lean ====
section
/-! SUPPORT. Tests: the check of well-formedness refuses ill-formed terms, words written from the spec's formats decode to what they
stand for, one step of each instruction on the vectors of 95_test_vectors.md, and for each statement with hypotheses a state and
operands that meet them. -/

namespace Sys2Proof.Tests

open Sys2Proof Sys2Proof.Machine Sys2Proof.Claims

set_option Elab.async false

/-! ### The states the tests start from -/

/-- The state of 95_test_vectors.md section 2, inside a batch call with one instruction left: reset values, `pc = 0x100`,
`mtvec = 0x200`, and no key arrives before the first poll. -/
def hart : State := { State.reset with pc := 0x100, mtvec := 0x200, keyFeed := [[]], phase := .running 1 }

/-- `hart` with x1 = `a` and x2 = `b`. -/
def pair (a b : Word) : State := (hart.setX 1 a).setX 2 b

/-- What `view` shows of the state after the one step that runs the word `w` from `s`. -/
def ran {α : Type} (w : Word) (s : State) (view : State → α) : Option α :=
  match step (s.placeWord w) with
  | .next t => some (view t)
  | _ => none

/-- Whether the step from `s` goes on to a state with the property. -/
def nextHas (s : State) (p : State → Bool) : Bool :=
  match step s with
  | .next t => p t
  | _ => false

/-- Whether the instruction goes on from `s` to a state with the property. -/
def execHas (i : Instr) (s : State) (p : State → Bool) : Bool :=
  match exec i s with
  | .next t => p t
  | _ => false

theorem exists_next {s : State} {p : State → Bool} (h : nextHas s p = true) : ∃ t, step s = .next t ∧ p t = true := by
  unfold nextHas at h
  split at h
  · exact ⟨_, ‹_›, h⟩
  · simp at h

theorem exists_exec {i : Instr} {s : State} {p : State → Bool} (h : execHas i s p = true) :
    ∃ t, exec i s = .next t ∧ p t = true := by
  unfold execHas at h
  split at h
  · exact ⟨_, ‹_›, h⟩
  · simp at h

theorem begins_of {s : State} {i : Instr} {n : Nat} {w : Word} (hp : s.phase = .running (n + 1)) (hf : s.fetch = .ok w)
    (hd : decode w = .ok i) : Begins s i := ⟨n, w, hp, hf, hd⟩

theorem begins_only {s : State} {i j : Instr} {w : Word} (hf : s.fetch = .ok w) (hd : decode w = .ok j) (h : Begins s i) :
    i = j := by
  obtain ⟨_, v, _, hv, hi⟩ := h
  obtain rfl : w = v := Except.ok.inj (hf.symm.trans hv)
  exact Except.ok.inj (hi.symm.trans hd)

/-! ### Well-formedness, the reset state, the table interface -/

theorem test_wellformed_refuses_odd_offsets :
    (Instr.jal 1 3).wellFormed = false ∧ (Instr.beq 1 2 1).wellFormed = false ∧ (Instr.bne 1 2 5).wellFormed = false ∧
    (Instr.blt 1 2 7).wellFormed = false ∧ (Instr.bge 1 2 0x1FFF).wellFormed = false ∧
    (Instr.bltu 1 2 9).wellFormed = false ∧ (Instr.bgeu 1 2 11).wellFormed = false := by decide

theorem test_test_configuration_valid : Config.testConfig.Valid :=
  ⟨by decide +kernel, by decide +kernel, by decide +kernel, by decide +kernel, by decide +kernel,
    ⟨by decide +kernel, by simp [Config.testConfig, Config.implementedCsrs]⟩, by decide +kernel⟩

theorem test_configuration_refuses_overlap :
    ¬ Config.RamBelowMmio { Config.testConfig with mmioBase := 0x000FFFFC } ∧
    ¬ Config.DevicesDistinct { Config.testConfig with fbSwapOff := 0x1300000 } ∧
    ¬ Config.DiagnosticsDistinct { Config.testConfig with csrDbgHex := 0x136 } := by decide +kernel

theorem test_reset_registers : (∀ r : Reg, State.reset.x r = 0) ∧ State.reset.pc = 0 ∧ State.reset.mem.wf = true := by
  decide +kernel

theorem test_decode_table_word : decodeTableWord 32 0x00208863 = some (.beq 1 2 16) ∧ decodeTableWord 32 0 = none := by
  decide +kernel

theorem test_fetch_word_runs : nextHas (State.reset.withFetchWord 32 0x00700193) (fun t => t.x 3 == 7 && t.pc == 4) = true := by
  decide +kernel

theorem test_decode_bytes : decodeBytes [0x93, 0x81, 0xA0, 0xFF, 0x13] = .ok (.addi 3 1 0xFFA, [0x13]) := by decide +kernel

/-! ### Decoding -/

/-- U-type (R400, R401): imm[31:12], rd, opcode. -/
theorem test_decode_upper :
    decode 0b10010001101000101011_00011_0110111#32 = .ok (.lui 3 0x91A2B) ∧
    decode 0b00000000000000000001_11111_0010111#32 = .ok (.auipc 31 1) := by decide +kernel

/-- J-type and JALR (R451, R452): the offset bits in the order 20, 10:1, 11, 19:12. -/
theorem test_decode_jumps :
    decode 0b0_0000000000_1_00000000_00001_1101111#32 = .ok (.jal 1 0x800) ∧
    decode 0b1_0000000001_0_10000000_00000_1101111#32 = .ok (.jal 0 0x180002) ∧
    decode 0b111111111111_00010_000_00001_1100111#32 = .ok (.jalr 1 2 0xFFF) := by decide +kernel

/-- B-type (R453 to R458): the offset bits in the order 12, 10:5 and 4:1, 11. -/
theorem test_decode_branches :
    decode 0b0_100000_00010_00001_000_0001_1_1100011#32 = .ok (.beq 1 2 0xC02) ∧
    decode 0b0_100000_00010_00001_001_0001_1_1100011#32 = .ok (.bne 1 2 0xC02) ∧
    decode 0b0_100000_00010_00001_100_0001_1_1100011#32 = .ok (.blt 1 2 0xC02) ∧
    decode 0b0_100000_00010_00001_101_0001_1_1100011#32 = .ok (.bge 1 2 0xC02) ∧
    decode 0b0_100000_00010_00001_110_0001_1_1100011#32 = .ok (.bltu 1 2 0xC02) ∧
    decode 0b0_100000_00010_00001_111_0001_1_1100011#32 = .ok (.bgeu 1 2 0xC02) := by decide +kernel

/-- I-type computation (R402 to R407). -/
theorem test_decode_immediate :
    decode 0b100000000001_00010_000_00011_0010011#32 = .ok (.addi 3 2 0x801) ∧
    decode 0b100000000001_00010_010_00011_0010011#32 = .ok (.slti 3 2 0x801) ∧
    decode 0b100000000001_00010_011_00011_0010011#32 = .ok (.sltiu 3 2 0x801) ∧
    decode 0b100000000001_00010_100_00011_0010011#32 = .ok (.xori 3 2 0x801) ∧
    decode 0b100000000001_00010_110_00011_0010011#32 = .ok (.ori 3 2 0x801) ∧
    decode 0b100000000001_00010_111_00011_0010011#32 = .ok (.andi 3 2 0x801) := by decide +kernel

/-- I-type shifts (R408 to R410). -/
theorem test_decode_immediate_shifts :
    decode 0b0000000_10001_00010_001_00011_0010011#32 = .ok (.slli 3 2 17) ∧
    decode 0b0000000_10001_00010_101_00011_0010011#32 = .ok (.srli 3 2 17) ∧
    decode 0b0100000_10001_00010_101_00011_0010011#32 = .ok (.srai 3 2 17) := by decide +kernel

/-- R-type computation (R411 to R420). -/
theorem test_decode_register :
    decode 0b0000000_00100_00010_000_00011_0110011#32 = .ok (.add 3 2 4) ∧
    decode 0b0100000_00100_00010_000_00011_0110011#32 = .ok (.sub 3 2 4) ∧
    decode 0b0000000_00100_00010_001_00011_0110011#32 = .ok (.sll 3 2 4) ∧
    decode 0b0000000_00100_00010_010_00011_0110011#32 = .ok (.slt 3 2 4) ∧
    decode 0b0000000_00100_00010_011_00011_0110011#32 = .ok (.sltu 3 2 4) ∧
    decode 0b0000000_00100_00010_100_00011_0110011#32 = .ok (.xor 3 2 4) ∧
    decode 0b0000000_00100_00010_101_00011_0110011#32 = .ok (.srl 3 2 4) ∧
    decode 0b0100000_00100_00010_101_00011_0110011#32 = .ok (.sra 3 2 4) ∧
    decode 0b0000000_00100_00010_110_00011_0110011#32 = .ok (.or 3 2 4) ∧
    decode 0b0000000_00100_00010_111_00011_0110011#32 = .ok (.and 3 2 4) := by decide +kernel

/-- I-type loads (R501 to R505). -/
theorem test_decode_loads :
    decode 0b011111111110_00010_000_00011_0000011#32 = .ok (.lb 3 2 0x7FE) ∧
    decode 0b011111111110_00010_001_00011_0000011#32 = .ok (.lh 3 2 0x7FE) ∧
    decode 0b011111111110_00010_010_00011_0000011#32 = .ok (.lw 3 2 0x7FE) ∧
    decode 0b011111111110_00010_100_00011_0000011#32 = .ok (.lbu 3 2 0x7FE) ∧
    decode 0b011111111110_00010_101_00011_0000011#32 = .ok (.lhu 3 2 0x7FE) := by decide +kernel

/-- S-type (R506 to R508): imm[11:5], rs2, rs1, funct3, imm[4:0]. -/
theorem test_decode_stores :
    decode 0b1000000_00100_00010_000_00001_0100011#32 = .ok (.sb 2 4 0x801) ∧
    decode 0b1000000_00100_00010_001_00001_0100011#32 = .ok (.sh 2 4 0x801) ∧
    decode 0b1000000_00100_00010_010_00001_0100011#32 = .ok (.sw 2 4 0x801) := by decide +kernel

/-- R-type of RV32M (R551 to R558). -/
theorem test_decode_multiply :
    decode 0b0000001_00100_00010_000_00011_0110011#32 = .ok (.mul 3 2 4) ∧
    decode 0b0000001_00100_00010_001_00011_0110011#32 = .ok (.mulh 3 2 4) ∧
    decode 0b0000001_00100_00010_010_00011_0110011#32 = .ok (.mulhsu 3 2 4) ∧
    decode 0b0000001_00100_00010_011_00011_0110011#32 = .ok (.mulhu 3 2 4) ∧
    decode 0b0000001_00100_00010_100_00011_0110011#32 = .ok (.div 3 2 4) ∧
    decode 0b0000001_00100_00010_101_00011_0110011#32 = .ok (.divu 3 2 4) ∧
    decode 0b0000001_00100_00010_110_00011_0110011#32 = .ok (.rem 3 2 4) ∧
    decode 0b0000001_00100_00010_111_00011_0110011#32 = .ok (.remu 3 2 4) := by decide +kernel

/-- R-amo (R600, R601, R604 to R612): funct5, aq, rl, rs2, rs1, funct3, rd. -/
theorem test_decode_atomics :
    decode 0b00010_1_0_00000_00010_010_00011_0101111#32 = .ok (.lrW 3 2 true false) ∧
    decode 0b00011_0_1_00100_00010_010_00011_0101111#32 = .ok (.scW 3 2 4 false true) ∧
    decode 0b00001_1_0_00100_00010_010_00011_0101111#32 = .ok (.amoswapW 3 2 4 true false) ∧
    decode 0b00000_1_0_00100_00010_010_00011_0101111#32 = .ok (.amoaddW 3 2 4 true false) ∧
    decode 0b00100_1_0_00100_00010_010_00011_0101111#32 = .ok (.amoxorW 3 2 4 true false) ∧
    decode 0b01100_1_0_00100_00010_010_00011_0101111#32 = .ok (.amoandW 3 2 4 true false) ∧
    decode 0b01000_1_0_00100_00010_010_00011_0101111#32 = .ok (.amoorW 3 2 4 true false) ∧
    decode 0b10000_1_0_00100_00010_010_00011_0101111#32 = .ok (.amominW 3 2 4 true false) ∧
    decode 0b10100_1_0_00100_00010_010_00011_0101111#32 = .ok (.amomaxW 3 2 4 true false) ∧
    decode 0b11000_1_0_00100_00010_010_00011_0101111#32 = .ok (.amominuW 3 2 4 true false) ∧
    decode 0b11100_1_0_00100_00010_010_00011_0101111#32 = .ok (.amomaxuW 3 2 4 true false) := by decide +kernel

/-- I-fence (R650, R651): fm, pred, succ, rs1, funct3, rd. -/
theorem test_decode_fences :
    decode 0b1000_0011_0001_00010_000_00011_0001111#32 = .ok (.fence 3 2 1 3 8) ∧
    decode 0b000000000101_00010_001_00011_0001111#32 = .ok (.fenceI 3 2 5) := by decide +kernel

/-- The four exact words (R660 to R663). -/
theorem test_decode_system :
    decode 0b000000000000_00000_000_00000_1110011#32 = .ok (.ecall) ∧
    decode 0b000000000001_00000_000_00000_1110011#32 = .ok (.ebreak) ∧
    decode 0b001100000010_00000_000_00000_1110011#32 = .ok (.mret) ∧
    decode 0b000100000101_00000_000_00000_1110011#32 = .ok (.wfi) := by decide +kernel

/-- I-csr (R671 to R676). -/
theorem test_decode_csr :
    decode 0b110010000000_00010_001_00011_1110011#32 = .ok (.csrrw 3 2 0xC80) ∧
    decode 0b110010000000_00010_010_00011_1110011#32 = .ok (.csrrs 3 2 0xC80) ∧
    decode 0b110010000000_00010_011_00011_1110011#32 = .ok (.csrrc 3 2 0xC80) ∧
    decode 0b110010000000_00010_101_00011_1110011#32 = .ok (.csrrwi 3 2 0xC80) ∧
    decode 0b110010000000_00010_110_00011_1110011#32 = .ok (.csrrsi 3 2 0xC80) ∧
    decode 0b110010000000_00010_111_00011_1110011#32 = .ok (.csrrci 3 2 0xC80) := by decide +kernel
/-! ### One step: RV32I computation -/

-- T-ALU-01: lui x3, 0x12345
theorem test_lui : ran 0x123451B7#32 hart (fun t => (t.x 3, t.pc)) = some (0x12345000#32, 0x104#32) := by decide +kernel

-- T-ALU-03: auipc x3, 0xFFFFF
theorem test_auipc : ran 0xFFFFF197#32 hart (fun t => t.x 3) = some 0xFFFFF100#32 := by decide +kernel

-- T-ALU-06: addi x3, x1, 1 (overflow wraps)
theorem test_addi_wraps : ran 0x00108193#32 (hart.setX 1 0x7FFFFFFF#32) (fun t => t.x 3) =
    some 0x80000000#32 := by decide +kernel

-- T-ALU-08: addi x0, x1, 1 (write to x0 discarded)
theorem test_addi_x0 : ran 0x00108013#32 (hart.setX 1 0x7#32) (fun t => (t.x 0, t.pc)) =
    some (0x0#32, 0x104#32) := by decide +kernel

-- T-ALU-09: slti x3, x1, 0
theorem test_slti : ran 0x0000A193#32 (hart.setX 1 0xFFFFFFFF#32) (fun t => t.x 3) = some 0x1#32 := by decide +kernel

-- T-ALU-10: slti x3, x1, -1
theorem test_slti_equal : ran 0xFFF0A193#32 (hart.setX 1 0xFFFFFFFF#32) (fun t => t.x 3) = some 0x0#32 := by decide +kernel

-- T-ALU-11: sltiu x3, x1, -1 (imm is 0xFFFFFFFF unsigned)
theorem test_sltiu : ran 0xFFF0B193#32 (hart.setX 1 0x5#32) (fun t => t.x 3) = some 0x1#32 := by decide +kernel

-- T-ALU-13: xori x3, x1, -1 (not)
theorem test_xori : ran 0xFFF0C193#32 (hart.setX 1 0xF0F0F0F#32) (fun t => t.x 3) = some 0xF0F0F0F0#32 := by decide +kernel

-- T-ALU-14: ori x3, x1, 0x7FF
theorem test_ori : ran 0x7FF0E193#32 (hart.setX 1 0x80000000#32) (fun t => t.x 3) = some 0x800007FF#32 := by decide +kernel

-- T-ALU-15: andi x3, x1, -16
theorem test_andi : ran 0xFF00F193#32 (hart.setX 1 0x12345678#32) (fun t => t.x 3) = some 0x12345670#32 := by decide +kernel

-- T-ALU-16: slli x3, x1, 31
theorem test_slli : ran 0x01F09193#32 (hart.setX 1 0x3#32) (fun t => t.x 3) = some 0x80000000#32 := by decide +kernel

-- T-ALU-18: srli x3, x1, 4
theorem test_srli : ran 0x0040D193#32 (hart.setX 1 0x80000000#32) (fun t => t.x 3) = some 0x8000000#32 := by decide +kernel

-- T-ALU-19: srai x3, x1, 4
theorem test_srai : ran 0x4040D193#32 (hart.setX 1 0x80000000#32) (fun t => t.x 3) = some 0xF8000000#32 := by decide +kernel

-- T-ALU-20: srai x3, x1, 31
theorem test_srai_positive : ran 0x41F0D193#32 (hart.setX 1 0x7FFFFFFF#32) (fun t => t.x 3) =
    some 0x0#32 := by decide +kernel

-- T-ALU-21: add x3, x1, x2
theorem test_add_wraps : ran 0x002081B3#32 ((hart.setX 1 0xFFFFFFFF#32).setX 2 0x1#32) (fun t => t.x 3) =
    some 0x0#32 := by decide +kernel

-- T-ALU-35: add x3, x3, x3 (rd = rs1 = rs2)
theorem test_add_same_register : ran 0x003181B3#32 (hart.setX 3 0x40000000#32) (fun t => t.x 3) =
    some 0x80000000#32 := by decide +kernel

-- T-ALU-22: sub x3, x1, x2
theorem test_sub : ran 0x402081B3#32 ((hart.setX 1 0x80000000#32).setX 2 0x1#32) (fun t => t.x 3) =
    some 0x7FFFFFFF#32 := by decide +kernel

-- T-ALU-24: sll x3, x1, x2 (only x2[4:0] used)
theorem test_sll_amount : ran 0x002091B3#32 ((hart.setX 1 0x1#32).setX 2 0x21#32) (fun t => t.x 3) =
    some 0x2#32 := by decide +kernel

-- T-ALU-25: slt x3, x1, x2
theorem test_slt : ran 0x0020A1B3#32 ((hart.setX 1 0x80000000#32).setX 2 0x1#32) (fun t => t.x 3) =
    some 0x1#32 := by decide +kernel

-- T-ALU-27: sltu x3, x1, x2
theorem test_sltu : ran 0x0020B1B3#32 ((hart.setX 1 0x80000000#32).setX 2 0x1#32) (fun t => t.x 3) =
    some 0x0#32 := by decide +kernel

-- T-ALU-29: xor x3, x1, x2
theorem test_xor : ran 0x0020C1B3#32 ((hart.setX 1 0xFF00FF00#32).setX 2 0xFF00FF0#32) (fun t => t.x 3) =
    some 0xF0F0F0F0#32 := by decide +kernel

-- T-ALU-30: srl x3, x1, x2
theorem test_srl : ran 0x0020D1B3#32 ((hart.setX 1 0x80000000#32).setX 2 0xFFFFFFFF#32) (fun t => t.x 3) =
    some 0x1#32 := by decide +kernel

-- T-ALU-31: sra x3, x1, x2
theorem test_sra : ran 0x4020D1B3#32 ((hart.setX 1 0x80000000#32).setX 2 0xFFFFFFFF#32) (fun t => t.x 3) =
    some 0xFFFFFFFF#32 := by decide +kernel

-- T-ALU-32: sra x3, x1, x2 (shift 32 is shift 0)
theorem test_sra_amount_32 : ran 0x4020D1B3#32 ((hart.setX 1 0x80000000#32).setX 2 0x20#32) (fun t => t.x 3) =
    some 0x80000000#32 := by decide +kernel

-- T-ALU-33: or x3, x1, x2
theorem test_or : ran 0x0020E1B3#32 ((hart.setX 1 0xF0000000#32).setX 2 0xF#32) (fun t => t.x 3) =
    some 0xF000000F#32 := by decide +kernel

-- T-ALU-34: and x3, x1, x2
theorem test_and : ran 0x0020F1B3#32 ((hart.setX 1 0xFF00FF00#32).setX 2 0xFF00FF0#32) (fun t => t.x 3) =
    some 0xF000F00#32 := by decide +kernel

/-! ### One step: RV32I control transfer -/

-- T-CTL-01: jal x1, -4
theorem test_jal : ran 0xFFDFF0EF#32 hart (fun t => (t.x 1, t.pc)) = some (0x104#32, 0xFC#32) := by decide +kernel

-- T-CTL-03: jal x1, 2 (target 0x102): misaligned
theorem test_jal_misaligned : ran 0x002000EF#32 hart (fun t => (t.x 1, t.mcause, t.mtval, t.mepc, t.pc)) =
    some (0x0#32, 0x0#32, 0x102#32, 0x100#32, 0x200#32) := by decide +kernel

-- T-CTL-05: jalr x1, 4(x1)
theorem test_jalr_same_register : ran 0x004080E7#32 (hart.setX 1 0x200#32) (fun t => (t.x 1, t.pc)) =
    some (0x104#32, 0x204#32) := by decide +kernel

-- T-CTL-07: jalr x3, 0(x1), x1 = 0x301 (bit 0 cleared)
theorem test_jalr_clears_bit_0 : ran 0x000081E7#32 (hart.setX 1 0x301#32) (fun t => (t.x 3, t.pc)) =
    some (0x104#32, 0x300#32) := by decide +kernel

-- T-CTL-09: beq x1, x2, 16 (taken)
theorem test_beq : ran 0x00208863#32 ((hart.setX 1 0x5#32).setX 2 0x5#32) (fun t => t.pc) =
    some 0x110#32 := by decide +kernel

-- T-CTL-11: beq x1, x2, 6 (not taken: no fault)
theorem test_beq_not_taken_misaligned : ran 0x00208363#32 ((hart.setX 1 0x1#32).setX 2 0x2#32)
    (fun t => (t.pc, t.mcause, t.mtval)) =
    some (0x104#32, 0x0#32, 0x0#32) := by decide +kernel

-- T-CTL-13: bne x1, x2, -256 (taken, backward)
theorem test_bne_backward : ran 0xF02090E3#32 ((hart.setX 1 0x5#32).setX 2 0x6#32) (fun t => t.pc) =
    some 0x0#32 := by decide +kernel

-- T-CTL-14: blt x1, x2, -8
theorem test_blt : ran 0xFE20CCE3#32 ((hart.setX 1 0xFFFFFFFF#32).setX 2 0x1#32) (fun t => t.pc) =
    some 0xF8#32 := by decide +kernel

-- T-CTL-15: blt x1, x2, -8 (signed: 1 < -1 false)
theorem test_blt_signed : ran 0xFE20CCE3#32 ((hart.setX 1 0x1#32).setX 2 0xFFFFFFFF#32) (fun t => t.pc) =
    some 0x104#32 := by decide +kernel

-- T-CTL-16: bge x1, x2, 16 (not taken)
theorem test_bge_signed : ran 0x0020D863#32 ((hart.setX 1 0x80000000#32).setX 2 0x7FFFFFFF#32) (fun t => t.pc) =
    some 0x104#32 := by decide +kernel

-- T-CTL-17: bge x1, x2, 16 (equal: taken)
theorem test_bge_equal : ran 0x0020D863#32 ((hart.setX 1 0x3#32).setX 2 0x3#32) (fun t => t.pc) =
    some 0x110#32 := by decide +kernel

-- T-CTL-18: bltu x1, x2, 16
theorem test_bltu : ran 0x0020E863#32 ((hart.setX 1 0x1#32).setX 2 0xFFFFFFFF#32) (fun t => t.pc) =
    some 0x110#32 := by decide +kernel

-- T-CTL-19: bltu x2, x1, 16 (swapped: not taken)
theorem test_bltu_swapped : ran 0x00116863#32 ((hart.setX 1 0x1#32).setX 2 0xFFFFFFFF#32) (fun t => t.pc) =
    some 0x104#32 := by decide +kernel

-- T-CTL-20: bgeu x1, x2, 16
theorem test_bgeu : ran 0x0020F863#32 ((hart.setX 1 0xFFFFFFFF#32).setX 2 0x1#32) (fun t => t.pc) =
    some 0x110#32 := by decide +kernel

-- T-CTL-21: bgeu x1, x0, -4094 (always taken; imm limit)
theorem test_bgeu_misaligned : ran 0x8000F163#32 (hart.setX 1 0x0#32) (fun t => (t.mcause, t.mtval, t.pc)) =
    some (0x0#32, 0xFFFFF102#32, 0x200#32) := by decide +kernel

/-! ### One step: RV32I loads and stores -/

-- T-LS-01: lb x3, 0(x1)
theorem test_lb : ran 0x00008183#32 ((hart.storeBytes 0x1000#32 .word 0x1234FF80#32).setX 1 0x1000#32) (fun t => t.x 3) =
    some 0xFFFFFF80#32 := by decide +kernel

-- T-LS-03: lh x3, 0(x1)
theorem test_lh : ran 0x00009183#32 ((hart.storeBytes 0x1000#32 .word 0x1234FF80#32).setX 1 0x1000#32) (fun t => t.x 3) =
    some 0xFFFFFF80#32 := by decide +kernel

-- T-LS-04: lh x3, 0(x1), x1 = 0x1001: misaligned
theorem test_lh_misaligned : ran 0x00009183#32 ((hart.storeBytes 0x1000#32 .word 0x1234FF80#32).setX 1 0x1001#32)
    (fun t => (t.x 3, t.mcause, t.mtval, t.mepc, t.pc)) =
    some (0x0#32, 0x4#32, 0x1001#32, 0x100#32, 0x200#32) := by decide +kernel

-- T-LS-05: lw x3, -4(x1)
theorem test_lw : ran 0xFFC0A183#32 ((hart.storeBytes 0x1000#32 .word 0x1234FF80#32).setX 1 0x1004#32) (fun t => t.x 3) =
    some 0x1234FF80#32 := by decide +kernel

-- T-LS-10: lw x3, 0(x1), x1 = 0x12000000 (past MMIO)
theorem test_lw_unmapped : ran 0x0000A183#32 ((hart.storeBytes 0x1000#32 .word 0x1234FF80#32).setX 1 0x12000000#32)
    (fun t => (t.mcause, t.mtval)) =
    some (0x5#32, 0x12000000#32) := by decide +kernel

-- T-LS-12: lbu x3, 0(x1)
theorem test_lbu : ran 0x0000C183#32 ((hart.storeBytes 0x1000#32 .word 0x1234FF80#32).setX 1 0x1000#32) (fun t => t.x 3) =
    some 0x80#32 := by decide +kernel

-- T-LS-14: lhu x3, 2(x1)
theorem test_lhu : ran 0x0020D183#32 ((hart.storeBytes 0x1000#32 .word 0x1234FF80#32).setX 1 0x1000#32) (fun t => t.x 3) =
    some 0x1234#32 := by decide +kernel

-- T-LS-16: sb x2, 0(x1)
theorem test_sb : ran 0x00208023#32 (((hart.storeBytes 0x1000#32 .word 0x1234FF80#32).setX 1 0x1000#32).setX 2 0xAABBCCDD#32)
    (fun t => t.loadBytes 0x1000#32 .word) =
    some 0x1234FFDD#32 := by decide +kernel

-- T-LS-17: sh x2, 0(x1), x1 = 0x1002
theorem test_sh : ran 0x00209023#32 (((hart.storeBytes 0x1000#32 .word 0x1234FF80#32).setX 1 0x1002#32).setX 2 0xAABBCCDD#32)
    (fun t => t.loadBytes 0x1000#32 .word) =
    some 0xCCDDFF80#32 := by decide +kernel

-- T-LS-18: sh x2, 0(x1), x1 = 0x1001: misaligned, memory unchanged
theorem test_sh_misaligned : ran 0x00209023#32 (((hart.storeBytes 0x1000#32 .word 0x1234FF80#32).setX 1 0x1001#32).setX 2 0xAABBCCDD#32)
    (fun t => (t.loadBytes 0x1000#32 .word, t.mcause, t.mtval)) =
    some (0x1234FF80#32, 0x6#32, 0x1001#32) := by decide +kernel

-- T-LS-22: sw x2, -2048(x1) (imm S-type split)
theorem test_sw : ran 0x8020A023#32 (((hart.storeBytes 0x1000#32 .word 0x1234FF80#32).setX 1 0x1800#32).setX 2 0x5A5A5A5A#32)
    (fun t => t.loadBytes 0x1000#32 .word) =
    some 0x5A5A5A5A#32 := by decide +kernel

-- T-LS-21: sw x2, 0(x1), x1 = 0x00100002: misaligned wins over access
theorem test_sw_misaligned_first : ran 0x0020A023#32 (((hart.storeBytes 0x1000#32 .word 0x1234FF80#32).setX 1 0x100002#32).setX 2 0x1#32)
    (fun t => (t.mcause, t.mtval)) =
    some (0x6#32, 0x100002#32) := by decide +kernel

/-! ### One step: the devices -/

-- T-DEV-02: sb x2, 0(x1): UART data, x2 = 0x141 (low byte only)
theorem test_uart_store : ran 0x00208023#32 ((hart.setX 1 0x10000000#32).setX 2 0x141#32) (fun t => t.console) =
    some [0x41#8] := by decide +kernel

-- T-DEV-04: lbu x3, 0(x1): LSR, key queued
theorem test_uart_status : ran 0x0000C183#32 { (hart.setX 1 0x10000005#32) with kbd := [0x71#8] } (fun t => (t.x 3, t.kbd)) =
    some (0x61#32, [0x71#8]) := by decide +kernel

-- T-DEV-06: lbu x3, 0(x1): UART data, key queued
theorem test_uart_data : ran 0x0000C183#32 { (hart.setX 1 0x10000000#32) with kbd := [0x71#8, 0x7A#8] }
    (fun t => (t.x 3, t.kbd)) =
    some (0x71#32, [0x7A#8]) := by decide +kernel

-- T-DEV-10: sw x2, 0(x1): compare low
theorem test_compare_low : ran 0x0020A023#32 { ((hart.setX 1 0x11004000#32).setX 2 0x1234#32) with mtimecmp := 0x500000000#64 }
    (fun t => t.mtimecmp) =
    some 0x500001234#64 := by decide +kernel

-- T-DEV-11: sb x2, 4(x1): compare high, full 32-bit value
theorem test_compare_high : ran 0x00208223#32 ((hart.setX 1 0x11004000#32).setX 2 0xAABBCCDD#32) (fun t => t.mtimecmp) =
    some 0xAABBCCDD00000000#64 := by decide +kernel

-- T-DEV-12: lw x3, 4(x1): compare high read back
theorem test_compare_high_load : ran 0x0040A183#32 { (hart.setX 1 0x11004000#32) with mtimecmp := 0x700000003#64 }
    (fun t => t.x 3) =
    some 0x7#32 := by decide +kernel

-- T-DEV-15: sw x2, 0(x1): timer low store reaches backing only
theorem test_timer_store : ran 0x0020A023#32 ((hart.setX 1 0x1100BFF8#32).setX 2 0x63#32)
    (fun t => (t.mtime, t.loadBytes 0x1100BFF8#32 .word)) =
    some (0x0#64, 0x63#32) := by decide +kernel

-- T-DEV-17: sw x2, 0(x1): swap
theorem test_swap : ran 0x0020A023#32 (((hart.setX 1 0x11300004#32).setX 2 0x0#32).storeBytes 0x11200000#32 .word 0x11223344#32)
    (fun t => (t.vblank, [0, 1, 2, 3].map (Memory.read t.present), t.loadBytes 0x11300004#32 .word)) =
    some (true, [0x44#8, 0x33#8, 0x22#8, 0x11#8], 0x0#32) := by decide +kernel

-- T-DEV-18: lw x3, 0(x1): vblank set
theorem test_vblank : ran 0x0000A183#32 { (hart.setX 1 0x11300000#32) with vblank := true } (fun t => (t.x 3, t.vblank)) =
    some (0x1#32, false) := by decide +kernel

-- T-DEV-21: sw x2, 0(x1): SYSCON poweroff (first instruction of a batch)
theorem test_syscon_poweroff : ran 0x0020A023#32 ((hart.setX 1 0x11100000#32).setX 2 0x5555#32)
    (fun t => (t.phase, t.pc, t.cycle64)) =
    some (Phase.ready (some (.poweroff 1)), 0x104#32, 0x1#64) := by decide +kernel

-- T-DEV-22: sw x2, 0(x1): SYSCON restart
theorem test_syscon_restart : ran 0x0020A023#32 ((hart.setX 1 0x11100000#32).setX 2 0x7777#32) (fun t => (t.phase, t.pc)) =
    some (Phase.ready (some .restart), 0x104#32) := by decide +kernel

-- T-DEV-24: sh x2, 0(x1): SYSCON, x2 = 0x00015555 (full value compared, not 0x5555)
theorem test_syscon_full_value : ran 0x00209023#32 ((hart.setX 1 0x11100000#32).setX 2 0x15555#32)
    (fun t => t.loadBytes 0x11100000#32 .word) =
    some 0x5555#32 := by decide +kernel

/-! ### One step: RV32M -/

-- T-M-01: mul x3, x1, x2
theorem test_mul : ran 0x022081B3#32 ((hart.setX 1 0x12345678#32).setX 2 0x9ABCDEF0#32) (fun t => (t.x 3, t.pc)) =
    some (0x242D2080#32, 0x104#32) := by decide +kernel

-- T-M-03: mulh x3, x1, x2
theorem test_mulh : ran 0x022091B3#32 ((hart.setX 1 0x12345678#32).setX 2 0x9ABCDEF0#32) (fun t => (t.x 3, t.pc)) =
    some (0xF8CC93D6#32, 0x104#32) := by decide +kernel

-- T-M-06: mulhsu x3, x1, x2
theorem test_mulhsu : ran 0x0220A1B3#32 ((hart.setX 1 0x80000000#32).setX 2 0x80000000#32) (fun t => (t.x 3, t.pc)) =
    some (0xC0000000#32, 0x104#32) := by decide +kernel

-- T-M-08: mulhu x3, x1, x2
theorem test_mulhu : ran 0x0220B1B3#32 ((hart.setX 1 0xFFFFFFFF#32).setX 2 0xFFFFFFFF#32) (fun t => (t.x 3, t.pc)) =
    some (0xFFFFFFFE#32, 0x104#32) := by decide +kernel

-- T-M-10: div x3, x1, x2
theorem test_div : ran 0x0220C1B3#32 ((hart.setX 1 0xFFFFFFEC#32).setX 2 0x6#32) (fun t => (t.x 3, t.pc)) =
    some (0xFFFFFFFD#32, 0x104#32) := by decide +kernel

-- T-M-13: div x3, x1, x2
theorem test_div_overflow : ran 0x0220C1B3#32 ((hart.setX 1 0x80000000#32).setX 2 0xFFFFFFFF#32) (fun t => (t.x 3, t.pc)) =
    some (0x80000000#32, 0x104#32) := by decide +kernel

-- T-M-15: divu x3, x1, x2
theorem test_divu_zero : ran 0x0220D1B3#32 ((hart.setX 1 0x7#32).setX 2 0x0#32) (fun t => (t.x 3, t.pc)) =
    some (0xFFFFFFFF#32, 0x104#32) := by decide +kernel

-- T-M-16: rem x3, x1, x2
theorem test_rem : ran 0x0220E1B3#32 ((hart.setX 1 0xFFFFFFEC#32).setX 2 0x6#32) (fun t => (t.x 3, t.pc)) =
    some (0xFFFFFFFE#32, 0x104#32) := by decide +kernel

-- T-M-20: rem x3, x1, x2
theorem test_rem_overflow : ran 0x0220E1B3#32 ((hart.setX 1 0x80000000#32).setX 2 0xFFFFFFFF#32) (fun t => (t.x 3, t.pc)) =
    some (0x0#32, 0x104#32) := by decide +kernel

-- T-M-22: remu x3, x1, x2
theorem test_remu_zero : ran 0x0220F1B3#32 ((hart.setX 1 0x7#32).setX 2 0x0#32) (fun t => (t.x 3, t.pc)) =
    some (0x7#32, 0x104#32) := by decide +kernel

/-! ### One step: RV32A -/

-- T-A-07: lr.w x3, (x1), x1 = 0x1002: misaligned
theorem test_lr_misaligned : ran 0x1000A1AF#32 (hart.setX 1 0x1002#32) (fun t => (t.mcause, t.mtval, t.resvValid)) =
    some (0x4#32, 0x1002#32, false) := by decide +kernel

-- T-A-08: lr.w x3, (x1), x1 = 0x10000000: MMIO not allowed
theorem test_lr_mmio : ran 0x1000A1AF#32 { (hart.setX 1 0x10000000#32) with kbd := [0x71#8] }
    (fun t => (t.mcause, t.mtval, t.kbd)) =
    some (0x5#32, 0x10000000#32, [0x71#8]) := by decide +kernel

-- T-A-09: sc.w x4, x2, (x1), x1 = 0x1002: misaligned
theorem test_sc_misaligned_keeps_reservation : ran 0x1820A22F#32 { { (hart.setX 1 0x1002#32) with resvValid := true } with resvAddr := 0x1002#32 }
    (fun t => (t.mcause, t.mtval, t.resvValid)) =
    some (0x6#32, 0x1002#32, true) := by decide +kernel

-- T-A-11: amoswap.w x3, x2, (x1)
theorem test_amoswap : ran 0x0820A1AF#32 (((hart.setX 1 0x1000#32).setX 2 0x3#32).storeBytes 0x1000#32 .word 0x5#32)
    (fun t => (t.x 3, t.loadBytes 0x1000#32 .word)) =
    some (0x5#32, 0x3#32) := by decide +kernel

-- T-A-13: amoadd.w x3, x2, (x1)
theorem test_amoadd_wraps : ran 0x0020A1AF#32 (((hart.setX 1 0x1000#32).setX 2 0x1#32).storeBytes 0x1000#32 .word 0xFFFFFFFF#32)
    (fun t => (t.x 3, t.loadBytes 0x1000#32 .word)) =
    some (0xFFFFFFFF#32, 0x0#32) := by decide +kernel

-- T-A-24: amoadd.w x1, x1, (x1) (rd = rs1 = rs2)
theorem test_amoadd_same_register : ran 0x0010A0AF#32 ((hart.setX 1 0x1000#32).storeBytes 0x1000#32 .word 0x5#32)
    (fun t => (t.x 1, t.loadBytes 0x1000#32 .word)) =
    some (0x5#32, 0x1005#32) := by decide +kernel

-- T-A-14: amoxor.w x3, x2, (x1)
theorem test_amoxor : ran 0x2020A1AF#32 (((hart.setX 1 0x1000#32).setX 2 0xFF00FF0#32).storeBytes 0x1000#32 .word 0xFF00FF00#32)
    (fun t => (t.x 3, t.loadBytes 0x1000#32 .word)) =
    some (0xFF00FF00#32, 0xF0F0F0F0#32) := by decide +kernel

-- T-A-15: amoand.w x3, x2, (x1)
theorem test_amoand : ran 0x6020A1AF#32 (((hart.setX 1 0x1000#32).setX 2 0xFF00FF0#32).storeBytes 0x1000#32 .word 0xFF00FF00#32)
    (fun t => (t.x 3, t.loadBytes 0x1000#32 .word)) =
    some (0xFF00FF00#32, 0xF000F00#32) := by decide +kernel

-- T-A-16: amoor.w x3, x2, (x1)
theorem test_amoor : ran 0x4020A1AF#32 (((hart.setX 1 0x1000#32).setX 2 0xFF00FF0#32).storeBytes 0x1000#32 .word 0xFF00FF00#32)
    (fun t => (t.x 3, t.loadBytes 0x1000#32 .word)) =
    some (0xFF00FF00#32, 0xFFF0FFF0#32) := by decide +kernel

-- T-A-17: amomin.w x3, x2, (x1)
theorem test_amomin : ran 0x8020A1AF#32 (((hart.setX 1 0x1000#32).setX 2 0x1#32).storeBytes 0x1000#32 .word 0xFFFFFFFF#32)
    (fun t => (t.x 3, t.loadBytes 0x1000#32 .word)) =
    some (0xFFFFFFFF#32, 0xFFFFFFFF#32) := by decide +kernel

-- T-A-18: amomax.w x3, x2, (x1)
theorem test_amomax : ran 0xA020A1AF#32 (((hart.setX 1 0x1000#32).setX 2 0x1#32).storeBytes 0x1000#32 .word 0xFFFFFFFF#32)
    (fun t => (t.x 3, t.loadBytes 0x1000#32 .word)) =
    some (0xFFFFFFFF#32, 0x1#32) := by decide +kernel

-- T-A-19: amominu.w x3, x2, (x1)
theorem test_amominu : ran 0xC020A1AF#32 (((hart.setX 1 0x1000#32).setX 2 0x1#32).storeBytes 0x1000#32 .word 0xFFFFFFFF#32)
    (fun t => (t.x 3, t.loadBytes 0x1000#32 .word)) =
    some (0xFFFFFFFF#32, 0x1#32) := by decide +kernel

-- T-A-20: amomaxu.w x3, x2, (x1)
theorem test_amomaxu : ran 0xE020A1AF#32 (((hart.setX 1 0x1000#32).setX 2 0x1#32).storeBytes 0x1000#32 .word 0xFFFFFFFF#32)
    (fun t => (t.x 3, t.loadBytes 0x1000#32 .word)) =
    some (0xFFFFFFFF#32, 0xFFFFFFFF#32) := by decide +kernel

/-! ### One step: system and CSR instructions -/

-- T-SYS-35: fence iorw, iorw
theorem test_fence : ran 0x0FF0000F#32 hart (fun t => t.pc) = some 0x104#32 := by decide +kernel

-- T-SYS-36: fence.i
theorem test_fence_i : ran 0x0000100F#32 hart (fun t => t.pc) = some 0x104#32 := by decide +kernel

-- T-SYS-37: ecall in M mode
theorem test_ecall_machine : ran 0x00000073#32 { hart with mstatus := { mie := true, mpie := false, mpp := .user } }
    (fun t => (t.mcause, t.mepc, t.mtval, t.mstatus.toWord, t.pc, t.priv)) =
    some (0xB#32, 0x100#32, 0x0#32, 0x1880#32, 0x200#32, Priv.machine) := by decide +kernel

-- T-SYS-38: ecall in U mode
theorem test_ecall_user : ran 0x00000073#32 { { hart with priv := .user } with mstatus := { mie := true, mpie := false, mpp := .machine } }
    (fun t => (t.mcause, t.mepc, t.mstatus.toWord, t.priv, t.pc)) =
    some (0x8#32, 0x100#32, 0x80#32, Priv.machine, 0x200#32) := by decide +kernel

-- T-SYS-39: ebreak
theorem test_ebreak : ran 0x00100073#32 hart (fun t => (t.mcause, t.mtval, t.mepc, t.pc, t.mstatus.toWord)) =
    some (0x3#32, 0x100#32, 0x100#32, 0x200#32, 0x1800#32) := by decide +kernel

-- T-SYS-40: mret, mstatus = 0x80, mepc = 0x400
theorem test_mret : ran 0x30200073#32 { { hart with mstatus := { mie := false, mpie := true, mpp := .user } } with mepc := 0x400#32 }
    (fun t => (t.priv, t.mstatus.toWord, t.pc)) =
    some (Priv.user, 0x88#32, 0x400#32) := by decide +kernel

-- T-SYS-42: mret in U mode: illegal
theorem test_mret_user : ran 0x30200073#32 { { hart with priv := .user } with mepc := 0x400#32 }
    (fun t => (t.mcause, t.mtval, t.mepc, t.priv, t.pc)) =
    some (0x2#32, 0x30200073#32, 0x100#32, Priv.machine, 0x200#32) := by decide +kernel

-- T-SYS-43: wfi, mie = 0
theorem test_wfi : ran 0x10500073#32 hart (fun t => (t.phase, t.wfi, t.pc)) =
    some (Phase.ready (some .idle), true, 0x104#32) := by decide +kernel

-- T-SYS-07: csrrw x1, mscratch, x1 (swap)
theorem test_csrrw_swap : ran 0x340090F3#32 ({ hart with mscratch := 0x55#32 }.setX 1 0x1000#32)
    (fun t => (t.x 1, t.mscratch)) =
    some (0x55#32, 0x1000#32) := by decide +kernel

-- T-SYS-03: csrrw x0, cycle, x1: read-only, illegal
theorem test_csrrw_read_only : ran 0xC0009073#32 (hart.setX 1 0x5#32) (fun t => (t.mcause, t.mtval)) =
    some (0x2#32, 0xC0009073#32) := by decide +kernel

-- T-SYS-01: csrrs x3, cycle, x0 (first instruction after reset)
theorem test_csrrs_cycle : ran 0xC00021F3#32 hart (fun t => (t.x 3, t.cycle64)) = some (0x1#32, 0x1#64) := by decide +kernel

-- T-SYS-24: csrrs x3, mstatus, x0 in U mode: illegal
theorem test_csrrs_user : ran 0x300021F3#32 { hart with priv := .user }
    (fun t => (t.mcause, t.mtval, t.priv, t.mstatus.toWord)) =
    some (0x2#32, 0x300021F3#32, Priv.machine, 0x0#32) := by decide +kernel

-- T-SYS-12: csrrc x3, mie, x1, x1 = 0xFFFFFFFF
theorem test_csrrc : ran 0x3040B1F3#32 ({ hart with mtie := true }.setX 1 0xFFFFFFFF#32)
    (fun t => (t.x 3, timerBitWord t.mtie)) =
    some (0x80#32, 0x0#32) := by decide +kernel

-- T-SYS-15: csrrwi x3, mtvec, 0x1F
theorem test_csrrwi_mtvec : ran 0x305FD1F3#32 hart (fun t => (t.x 3, t.mtvec)) =
    some (0x200#32, 0x1C#32) := by decide +kernel

-- T-SYS-30: csrrwi x0, 0x139, 10 (DBG_CHAR)
theorem test_csrrwi_print_char : ran 0x13955073#32 hart (fun t => t.console) = some [0x0A#8] := by decide +kernel

-- T-SYS-05: csrrsi x3, cycle, 0 (uimm 0: no write): legal
theorem test_csrrsi_reads_read_only : ran 0xC00061F3#32 hart (fun t => t.x 3) = some 0x1#32 := by decide +kernel

-- T-SYS-16: csrrsi x3, mstatus, 8
theorem test_csrrsi : ran 0x300461F3#32 hart (fun t => (t.x 3, t.mstatus.toWord)) =
    some (0x0#32, 0x8#32) := by decide +kernel

-- T-SYS-17: csrrci x3, mstatus, 8
theorem test_csrrci : ran 0x300471F3#32 { hart with mstatus := { mie := true, mpie := true, mpp := .user } }
    (fun t => (t.x 3, t.mstatus.toWord)) =
    some (0x88#32, 0x80#32) := by decide +kernel

-- T-SYS-09: csrrw x0, mstatus, x1, x1 = 0x00000800 (MPP = S: kept)
theorem test_mstatus_mpp_kept : ran 0x30009073#32 { (hart.setX 1 0x800#32) with mstatus := { mie := false, mpie := false, mpp := .machine } }
    (fun t => t.mstatus.toWord) =
    some 0x1800#32 := by decide +kernel

-- T-SYS-26: csrrw x0, 0x136, x1 (DBG_DEC), x1 = 0xFFFFFFFF
theorem test_print_decimal : ran 0x13609073#32 (hart.setX 1 0xFFFFFFFF#32) (fun t => t.console) =
    some [0x2D#8, 0x31#8] := by decide +kernel

-- T-SYS-27: csrrw x0, 0x137, x1 (DBG_HEX), x1 = 0x00ABCDEF
theorem test_print_hex : ran 0x13709073#32 (hart.setX 1 0xABCDEF#32) (fun t => t.console) =
    some [0x30#8, 0x30#8, 0x61#8, 0x62#8, 0x63#8, 0x64#8, 0x65#8, 0x66#8] := by decide +kernel

-- T-SYS-28: csrrw x0, 0x138, x1 (DBG_STR), x1 = 0x1000
theorem test_print_string : ran 0x13809073#32 ((hart.setX 1 0x1000#32).storeBytes 0x1000#32 .word 0x216948#32)
    (fun t => t.console) =
    some [0x48#8, 0x69#8, 0x21#8] := by decide +kernel

-- T-SYS-31: csrrs x3, 0x140, x0 (DBG_GETC), key q
theorem test_read_key : ran 0x140021F3#32 { hart with kbd := [0x71#8] } (fun t => (t.x 3, t.kbd)) =
    some (0x71#32, []) := by decide +kernel

/-! ### One step: the rest of RV32M, RV32A, WFI and traps, from the same tables -/

-- T-A-01: lr.w; T-A-02: sc.w after it; R601's example: sc.w alone
theorem test_lr : ran 0x1000A1AF#32 ((hart.setX 1 0x1000).storeBytes 0x1000 .word 0x1234)
    (fun t => (t.x 3, t.resvValid, t.resvAddr)) =
    some (0x1234#32, true, 0x1000#32) := by decide +kernel

theorem test_sc_succeeds : ran 0x1820A22F#32 { pair 0x1000 0x99 with resvValid := true, resvAddr := 0x1000 }
    (fun t => (t.x 4, t.loadBytes 0x1000 .word, t.resvValid)) =
    some (0#32, 0x99#32, false) := by decide +kernel

theorem test_sc_fails : ran 0x1820A22F#32 { pair 0x1000 0x99 with resvValid := true, resvAddr := 0x1004 }
    (fun t => (t.x 4, t.loadBytes 0x1000 .word, t.resvValid)) =
    some (1#32, 0#32, false) := by decide +kernel

-- T-SYS-44: wfi, mie = 0x80, MTIP = 1
theorem test_wfi_pending : ran 0x10500073#32 { hart with mtie := true, mtip := true }
    (fun t => (t.wfi, t.pc, t.phase)) =
    some (false, 0x104#32, Phase.running 0) := by decide +kernel

-- T-SYS-46: all-zero word; T-TRP-14: fetch outside RAM; T-TRP-12: strict mode
theorem test_zero_word_illegal : ran 0#32 hart (fun t => (t.mcause, t.mtval, t.mepc, t.pc)) =
    some (2#32, 0#32, 0x100#32, 0x200#32) := by decide +kernel

theorem test_fetch_outside_ram : nextHas { hart with pc := 0x00100000 }
    (fun t => t.mcause == 1 && t.mtval == 0x00100000 && t.mepc == 0x00100000 && t.pc == 0x200 && t.cycle64 == 1) = true := by
  decide +kernel

theorem test_strict_ecall : ran 0x73#32 { hart with cfg := { Config.testConfig with strictTraps := true } }
    (fun t => (t.phase, t.pc, t.mcause, t.cycle64)) =
    some (Phase.ready (some (.fatal 11 0)), 0x100#32, 0#32, 1#64) := by decide +kernel

-- T-TRP-08: a waiting hart is released, then the interrupt; T-TRP-07: a waiting hart stays idle; T-TRP-20: mtime wraps
theorem test_release_then_interrupt :
    nextHas { hart with
        phase := .ready (some .idle), turns := [.call false 1 1], wfi := true, mtimecmp := 1, mtie := true
        mstatus := { mie := true, mpie := false, mpp := .user } }
      (fun t => !t.wfi && t.mcause == 0x80000007 && t.mepc == 0x100 && t.pc == 0x200 && t.phase == .ready (some .continues)) =
    true := by decide +kernel

theorem test_wait_goes_on :
    nextHas { hart with phase := .ready (some .idle), turns := [.call false 50 1], wfi := true }
      (fun t => t.wfi && t.mtime == 50 && t.mtip && t.cycle64 == 0 && t.phase == .ready (some .idle)) = true := by decide +kernel

-- R770: before the first call the host neither sets vblank nor cancels; after a reset it may set vblank
theorem test_first_call_sets_no_vblank :
    nextHas { State.reset with turns := [.call true 0 1] } (fun t => !t.vblank && t.phase == .running 1 && t.turns == []) =
      true ∧
    nextHas { State.reset with turns := [.stop, .call true 0 1] }
      (fun t => t.phase == .ready none && t.turns == [.call true 0 1]) = true ∧
    nextHas { State.reset with phase := .rebooted, turns := [.call true 0 1] } (fun t => t.vblank) = true := by
  decide +kernel

theorem test_mtime_wraps :
    nextHas { hart with
        phase := .ready (some .continues), turns := [.call false 1 1], mtime := 0xFFFFFFFFFFFFFFFF, mtimecmp := 5 }
      (fun t => t.mtime == 0 && !t.mtip && t.phase == .running 1) = true := by decide +kernel

/-! ### Witnesses: decoding -/

theorem witness_DecodeEncodeRoundTrip :
    (Instr.jal 31 0x100000).wellFormed = true ∧ (Instr.jal 0 0xFFFFE).wellFormed = true ∧
    (Instr.bgeu 31 31 0x1000).wellFormed = true ∧ (Instr.beq 0 0 0xFFE).wellFormed = true := by decide

theorem witness_DecodedWordEncodesBack : decode 0x00000013#32 = .ok (.addi 0 0 0) := by decide +kernel

theorem witness_DecodeFollowsOpcodeTable :
    (∃ r ∈ opcodeRows, r.Spells 0x123451B7#32) ∧ ∀ r ∈ opcodeRows, ¬ r.Spells 0#32 := by
  refine ⟨⟨⟨"LUI", 0x00000037, 0x0000007F⟩, by decide +kernel, by unfold Row.Spells; decide⟩, ?_⟩
  unfold Row.Spells
  decide +kernel

/-- One word for the hypotheses of each clause, in order. -/
theorem witness_StrictDecodingRefusesNearWords :
    (∀ r ∈ opcodeRows, ¬ r.Spells 0xFFFFFFFF#32) ∧
    (opcodeOf 0x042081B3 = 0b0110011#7 ∧ funct7Of 0x042081B3 ∉ [0b0000000#7, 0b0100000#7, 0b0000001#7]) ∧
    (opcodeOf 0x402091B3 = 0b0110011#7 ∧ funct7Of 0x402091B3 = 0b0100000#7 ∧ funct3Of 0x402091B3 ∉ [0b000#3, 0b101#3]) ∧
    (opcodeOf 0x02009193 = 0b0010011#7 ∧ funct3Of 0x02009193 = 0b001#3 ∧ funct7Of 0x02009193 ≠ 0b0000000#7) ∧
    (opcodeOf 0x4210D193 = 0b0010011#7 ∧ funct3Of 0x4210D193 = 0b101#3 ∧
      funct7Of 0x4210D193 ∉ [0b0000000#7, 0b0100000#7]) ∧
    (opcodeOf 0x0000F183 = 0b0000011#7 ∧ funct3Of 0x0000F183 ∈ [0b011#3, 0b110#3, 0b111#3]) ∧
    (opcodeOf 0x0020B023 = 0b0100011#7 ∧ 0b011 ≤ (funct3Of 0x0020B023).toNat) ∧
    (opcodeOf 0x0020A063 = 0b1100011#7 ∧ funct3Of 0x0020A063 ∈ [0b010#3, 0b011#3]) ∧
    (opcodeOf 0x000090E7 = 0b1100111#7 ∧ funct3Of 0x000090E7 ≠ 0b000#3) ∧
    (opcodeOf 0x0020B1AF = 0b0101111#7 ∧ funct3Of 0x0020B1AF ≠ 0b010#3) ∧
    (opcodeOf 0x2820A1AF = 0b0101111#7 ∧ funct5Of 0x2820A1AF = 0b00101#5) ∧
    (opcodeOf 0x1010A1AF = 0b0101111#7 ∧ funct5Of 0x1010A1AF = 0b00010#5 ∧ rs2Of 0x1010A1AF ≠ 0b00000#5) ∧
    (opcodeOf 0x0000200F = 0b0001111#7 ∧ 0b010 ≤ (funct3Of 0x0000200F).toNat) ∧
    (opcodeOf 0x10200073 = 0b1110011#7 ∧ funct3Of 0x10200073 = 0b000#3 ∧
      0x10200073#32 ∉ [0x00000073#32, 0x00100073#32, 0x30200073#32, 0x10500073#32]) ∧
    (opcodeOf 0x30004073 = 0b1110011#7 ∧ funct3Of 0x30004073 = 0b100#3) := by
  refine ⟨by unfold Row.Spells; decide +kernel, ?_⟩
  decide +kernel

/-! ### Witnesses: steps, reset, the run -/

/-- The last word of RAM holds `addi x3, x0, 7`. -/
theorem witness_StepRunsDecodedInstruction :
    let s := { hart with pc := 0x000FFFFC }.placeWord 0x00700193
    s.phase = .running (0 + 1) ∧ Aligned s.pc .word ∧ InRam s.cfg s.pc ∧
      decode (bytesValue s.mem s.pc.toNat .word) = .ok (.addi 3 0 7) := by
  simp only [Aligned, InRam, bytesValue]
  decide +kernel

/-- One past the last word of RAM; the last word, holding zeros and holding an instruction. -/
theorem witness_FetchAndDecodeRaiseFirst :
    (hart.cfg.Valid ∧ hart.phase = .running (0 + 1) ∧ Aligned 0x00100000 .word ∧
      ∃ k < 4, ¬ InRam Config.testConfig (0x00100000 + BitVec.ofNat 32 k)) ∧
    (Aligned 0x000FFFFC .word ∧ (∀ k < 4, InRam Config.testConfig (0x000FFFFC + BitVec.ofNat 32 k)) ∧
      Illegal (bytesValue [] 0x000FFFFC .word)) ∧
    decode (bytesValue ({ hart with pc := 0x000FFFFC }.placeWord 0x00700193).mem 0x000FFFFC .word) = .ok (.addi 3 0 7) := by
  refine ⟨⟨test_test_configuration_valid, rfl, by simp only [Aligned]; decide, 0, by omega, by simp only [InRam]; decide +kernel⟩,
    ⟨by simp only [Aligned]; decide, by simp only [InRam]; decide +kernel, ?_⟩, ?_⟩
  · exact ⟨_, rfl⟩
  · simp only [bytesValue]
    decide +kernel

theorem witness_CycleCounterCountsInstructionsBegun :
    (∃ t, step hart = .next t ∧ true = true) ∧
    (∃ t, step { hart with phase := .running 0 } = .next t ∧ true = true) ∧
    (Begins (hart.placeWord 0xC00021F3) (.csrrs 3 0 0xC00) ∧ ∃ t, step (hart.placeWord 0xC00021F3) = .next t ∧ true = true) ∧
    (Begins (hart.placeWord 0xC80021F3) (.csrrs 3 0 0xC80) ∧ ∃ t, step (hart.placeWord 0xC80021F3) = .next t ∧ true = true) ∧
    ∃ t, step ((pair 0x11100000 0x5555).placeWord 0x0020A023) = .next t ∧
      decide (t.phase = .ready (some (.poweroff 1))) = true :=
  ⟨exists_next (p := fun _ => true) (by decide +kernel), exists_next (p := fun _ => true) (by decide +kernel),
    ⟨begins_of (n := 0) (w := 0xC00021F3) rfl (by decide +kernel) (by decide +kernel),
      exists_next (p := fun _ => true) (by decide +kernel)⟩,
    ⟨begins_of (n := 0) (w := 0xC80021F3) rfl (by decide +kernel) (by decide +kernel),
      exists_next (p := fun _ => true) (by decide +kernel)⟩,
    exists_next (p := fun t => decide (t.phase = .ready (some (.poweroff 1)))) (by decide +kernel)⟩

theorem witness_ResetGivesTheListedValues :
    let s := { hart with phase := .ready (some .restart), turns := [.call true 0 0] }
    s.phase = .ready (some .restart) ∧ s.nextTurn = .call true 0 0 := ⟨rfl, rfl⟩

/-- The smallest legal RAM, an image of its size and one of a byte more. -/
theorem witness_LaunchAcceptsExactlyLegalParameters :
    let c := { Config.testConfig with ramSize := 4 }
    c.Valid ∧ launch c [1, 2, 3, 4] = .ok (coldStart c [1, 2, 3, 4]) ∧ launch c [] = .ok (coldStart c []) ∧
      c.ramSize.toNat < [1, 2, 3, 4, (5 : Byte)].length := by
  intro c
  have hv : c.Valid :=
    ⟨by decide +kernel, by decide +kernel, by decide +kernel, by decide +kernel, by decide +kernel,
      test_test_configuration_valid.2.2.2.2.2.1, by decide +kernel⟩
  refine ⟨hv, ?_, ?_, by decide +kernel⟩
  · rw [launch, if_neg (not_not_intro hv), if_neg (by decide +kernel)]
  · rw [launch, if_neg (not_not_intro hv), if_neg (by decide +kernel)]

theorem hart_inv : hart.Inv where
  launch := ⟨test_test_configuration_valid, by decide +kernel⟩
  memory := by decide +kernel
  pcs := by decide +kernel
  zero := by decide +kernel
  wait := by decide +kernel
  fatal := by intro _ _ h; cases h

theorem witness_EveryStepKeepsInvariant : hart.Inv ∧ ∃ t, step hart = .next t ∧ true = true :=
  ⟨hart_inv, exists_next (p := fun _ => true) (by decide +kernel)⟩

theorem witness_LaunchParametersNeverChange :
    ∃ t, step { hart with phase := .ready (some .restart), turns := [.call false 0 0] } = .next t ∧ true = true :=
  exists_next (p := fun _ => true) (by decide +kernel)

theorem witness_RunEndsOnlyAsListed : ¬ ∃ t, step { hart with phase := .stopped } = .next t := by
  rintro ⟨_, h⟩
  cases h

/-! ### Witnesses: control transfer -/

/-- The most negative JAL offset and an offset of 2; JALR with bit 0 cleared and with bit 1 set. -/
theorem witness_JumpsLinkAndTransfer :
    (opcodeOf 0x000090E7 = 0b1100111#7 ∧ funct3Of 0x000090E7 ≠ 0b000#3) ∧
    WordAligned (hart.pc + (0x100000 : BitVec 21).signExtend 32) ∧ ¬ WordAligned (hart.pc + (2 : BitVec 21).signExtend 32) ∧
    WordAligned (((pair 0x301 0).x 1 + (0 : BitVec 12).signExtend 32) &&& 0xFFFFFFFE) ∧
    ¬ WordAligned (((pair 0x102 0).x 1 + (0 : BitVec 12).signExtend 32) &&& 0xFFFFFFFE) := by decide +kernel

/-- Each condition false and true, at the boundary of the comparison, with an aligned and a misaligned target. -/
theorem witness_BranchesCompareAndTransfer :
    (opcodeOf 0x0020A063 = 0b1100011#7 ∧ funct3Of 0x0020A063 ∈ [0b010#3, 0b011#3]) ∧
    (let a := (0x80000000 : Word)
     let b := (0x7FFFFFFF : Word)
     decide (a = b) = false ∧ decide (a = a) = true ∧ decide (a ≠ a) = false ∧ decide (a ≠ b) = true ∧
       decide (b.toInt < a.toInt) = false ∧ decide (a.toInt < b.toInt) = true ∧
       decide (b.toInt ≤ a.toInt) = false ∧ decide (a.toInt ≤ a.toInt) = true ∧
       decide (a.toNat < a.toNat) = false ∧ decide (b.toNat < a.toNat) = true ∧
       decide (a.toNat ≤ b.toNat) = false ∧ decide (a.toNat ≤ a.toNat) = true) ∧
    WordAligned (hart.pc + (0x1000 : BitVec 13).signExtend 32) ∧
    ¬ WordAligned (hart.pc + (0x1002 : BitVec 13).signExtend 32) := by decide +kernel

/-! ### Witnesses: loads, stores, devices -/

/-- RAM's first and last byte and word, backing bytes up to the last word of the window; a device register; misaligned; one
past RAM and one past the window. -/
theorem witness_LoadsReadMemoryOrDevice :
    let c := Config.testConfig
    (Aligned 0 .word ∧ LoadReachesBytes c 0) ∧ (Aligned 0x000FFFFF .byte ∧ LoadReachesBytes c 0x000FFFFF) ∧
    (Aligned 0x000FFFFC .word ∧ LoadReachesBytes c 0x000FFFFC) ∧
    (Aligned 0x11FFFFFC .word ∧ LoadReachesBytes c 0x11FFFFFC) ∧
    (Aligned 0x10000000 .word ∧ InMmio c 0x10000000 ∧ loadPort c 0x10000000 = some .uartData) ∧
    (Aligned 0x10000005 .byte ∧ InMmio c 0x10000005 ∧ loadPort c 0x10000005 = some .uartStatus) ∧
    ¬ Aligned 0x000FFFFF .half ∧ ¬ Aligned 0x000FFFFE .word ∧
    (Aligned 0x00100000 .word ∧ Unmapped c 0x00100000) ∧ (Aligned 0x0FFFFFFF .byte ∧ Unmapped c 0x0FFFFFFF) ∧
    (Aligned 0x12000000 .word ∧ Unmapped c 0x12000000) ∧ effective (pair 0x00100000 0) 1 0xFFF = 0x000FFFFF := by
  simp only [Aligned, LoadReachesBytes, InMmio, Unmapped, InRam, effective]
  and_intros <;> decide +kernel

theorem witness_UartLoadsPollTheKeyboard :
    let s := { pair 0x10000000 0 with kbd := [0xF0, 0x41] }
    let e := pair 0x10000000 0
    s.cfg.Valid ∧ Aligned (effective s 1 0) .half ∧ effective s 1 0 = s.cfg.mmioBase + s.cfg.uartDataOff ∧
      queueAtPoll s = 0xF0 :: [0x41] ∧ queueAtPoll { e with keyFeed := [[0x42]] } = 0x42 :: [] ∧ queueAtPoll e = [] ∧
      Aligned (effective e 1 5) .byte ∧ effective e 1 5 = e.cfg.mmioBase + e.cfg.uartLsrOff := by
  refine ⟨test_test_configuration_valid, ?_⟩
  simp only [Aligned, effective, queueAtPoll, arrivals]
  and_intros <;> decide +kernel

theorem witness_ClintLoadsGiveTimerHalves :
    (hart.phase = .running 1 ∧ ∃ t, step hart = .next t ∧ true = true) ∧
    hart.cfg.Valid ∧
    (Aligned (effective (pair 0x1100BFF8 0) 1 0) .word ∧
      effective (pair 0x1100BFF8 0) 1 0 = Config.testConfig.mmioBase + Config.testConfig.clintTimeLoOff) ∧
    (Aligned (effective (pair 0x1100BFF8 0) 1 4) .word ∧
      effective (pair 0x1100BFF8 0) 1 4 = Config.testConfig.mmioBase + Config.testConfig.clintTimeHiOff) ∧
    (Aligned (effective (pair 0x11004000 0) 1 0) .word ∧
      effective (pair 0x11004000 0) 1 0 = Config.testConfig.mmioBase + Config.testConfig.clintCmpLoOff) ∧
    (Aligned (effective (pair 0x11004000 0) 1 4) .word ∧
      effective (pair 0x11004000 0) 1 4 = Config.testConfig.mmioBase + Config.testConfig.clintCmpHiOff) := by
  refine ⟨⟨rfl, exists_next (p := fun _ => true) (by decide +kernel)⟩, test_test_configuration_valid, ?_⟩
  simp only [Aligned, effective]
  and_intros <;> decide +kernel

theorem witness_VblankLoadReturnsAndClears :
    let s := { pair 0x11300000 1 with vblank := true }
    s.cfg.Valid ∧ s.mem.wf = true ∧ effective s 1 0 = s.cfg.mmioBase + s.cfg.fbVblankOff := by
  refine ⟨test_test_configuration_valid, ?_⟩
  simp only [effective]
  and_intros <;> decide +kernel

theorem witness_StoresWriteMemoryOrDevice :
    let c := Config.testConfig
    hart.mem.wf = true ∧
    (Aligned 0 .word ∧ StoreReachesBytes c 0) ∧ (Aligned 0x000FFFFF .byte ∧ StoreReachesBytes c 0x000FFFFF) ∧
    (Aligned 0x000FFFFC .word ∧ StoreReachesBytes c 0x000FFFFC) ∧
    (Aligned 0x11FFFFFE .half ∧ StoreReachesBytes c 0x11FFFFFE) ∧
    (Aligned 0x1100BFF8 .word ∧ StoreReachesBytes c 0x1100BFF8) ∧
    (Aligned 0x11100000 .byte ∧ InMmio c 0x11100000 ∧ storePort c 0x11100000 = some .syscon) ∧
    ¬ Aligned 0x000FFFFF .half ∧ ¬ Aligned 0x10000005 .word ∧
    (Aligned 0x00100000 .word ∧ Unmapped c 0x00100000) ∧ (Aligned 0xFFFFFFFF .byte ∧ Unmapped c 0xFFFFFFFF) ∧
    effective (pair 0x000FFFFF 0) 1 1 = 0x00100000 := by
  simp only [Aligned, StoreReachesBytes, InMmio, Unmapped, InRam, effective]
  and_intros <;> decide +kernel

theorem witness_UartAndClintStores :
    hart.cfg.Valid ∧
    (Aligned (effective (pair 0x10000000 0x141) 1 0) .word ∧
      effective (pair 0x10000000 0x141) 1 0 = Config.testConfig.mmioBase + Config.testConfig.uartDataOff) ∧
    (Aligned (effective (pair 0x11004000 9) 1 0) .byte ∧
      effective (pair 0x11004000 9) 1 0 = Config.testConfig.mmioBase + Config.testConfig.clintCmpLoOff) ∧
    (Aligned (effective (pair 0x11004000 9) 1 4) .half ∧
      effective (pair 0x11004000 9) 1 4 = Config.testConfig.mmioBase + Config.testConfig.clintCmpHiOff) := by
  refine ⟨test_test_configuration_valid, ?_⟩
  simp only [Aligned, effective]
  and_intros <;> decide +kernel

theorem witness_SwapCopiesPixelRegion :
    let s := pair 0x11300000 0
    s.cfg.Valid ∧ effective s 1 4 = s.cfg.mmioBase + s.cfg.fbSwapOff ∧
      0 < s.cfg.fbWidth.toNat * s.cfg.fbHeight.toNat * 4 := by
  refine ⟨test_test_configuration_valid, ?_⟩
  simp only [effective]
  and_intros <;> decide +kernel

/-- The two sentinels and a value that differs from one of them above bit 15 only. -/
theorem witness_SysconStoreActs :
    let s := fun v : Word => pair 0x11100000 v
    hart.cfg.Valid ∧ hart.mem.wf = true ∧ effective (s 0) 1 0 = hart.cfg.mmioBase + hart.cfg.sysconOff ∧
      (s 0x7777).x 2 = hart.cfg.sysconRestart ∧ (s 0x5555).x 2 = hart.cfg.sysconPoweroff ∧
      (s 0x15555).x 2 ≠ hart.cfg.sysconRestart ∧ (s 0x15555).x 2 ≠ hart.cfg.sysconPoweroff ∧
      { hart with turns := [.call false 0 7] }.nextTurn = .call false 0 7 := by
  refine ⟨test_test_configuration_valid, ?_⟩
  simp only [effective]
  and_intros <;> decide +kernel

theorem witness_DispatcherInterceptsExactlyTheTable :
    let c := Config.testConfig
    c.Valid ∧ (0x11100000 : Word) ∉ interceptedLoads c ∧ (0x1100BFF8 : Word) ∉ interceptedStores c ∧
      (0x1100BFF8 : Word) ∈ interceptedLoads c ∧ (0x11100000 : Word) ∈ interceptedStores c := by
  refine ⟨test_test_configuration_valid, ?_⟩
  decide +kernel

theorem witness_TimerStoresReachBackingBytesOnly :
    let s := pair 0x1100BFF8 0x63
    s.cfg.Valid ∧ s.mem.wf = true ∧ effective s 1 0 = s.cfg.mmioBase + s.cfg.clintTimeLoOff ∧
      effective s 1 4 = s.cfg.mmioBase + s.cfg.clintTimeHiOff := by
  refine ⟨test_test_configuration_valid, ?_⟩
  simp only [effective]
  and_intros <;> decide +kernel

/-- The last byte of the last word of RAM; a word stored just after the pc. -/
theorem witness_MemoryIsLittleEndianAndCoherent :
    let s := pair 0x000FFFFC 0x11223344
    let p := pair 0x104 0x00700193
    (s.cfg.Valid ∧ s.mem.wf = true ∧ (3 < 4) ∧ Aligned (effective s 1 0) .word ∧ InRam s.cfg (effective s 1 0) ∧
      ∃ t, exec (.sw 1 2 0) s = .next t ∧ decide (t.x 1 + (3 : BitVec 12).signExtend 32 = 0x000FFFFC + 3) = true) ∧
    p.mem.wf = true ∧ effective p 1 0 = p.pc + 4 ∧ Aligned (p.pc + 4) .word ∧ InRam p.cfg (p.pc + 4) ∧
      ∃ t, exec (.sw 1 2 0) p = .next t ∧ true = true := by
  refine ⟨⟨test_test_configuration_valid, rfl, by omega, by simp only [Aligned, effective]; decide +kernel,
    by simp only [InRam, effective]; decide +kernel,
    exists_exec (p := fun t => decide (t.x 1 + (3 : BitVec 12).signExtend 32 = 0x000FFFFC + 3)) (by decide +kernel)⟩, rfl,
    by simp only [effective]; decide +kernel, by simp only [Aligned]; decide +kernel, by simp only [InRam]; decide +kernel,
    exists_exec (p := fun _ => true) (by decide +kernel)⟩

/-- The clauses' hypotheses at the edges of the regions; the last clause at the last aligned word of each region. -/
theorem witness_MemoryChecksComeInOrder :
    let c := Config.testConfig
    c.Valid ∧ ¬ Aligned 0x10000001 .half ∧ (Aligned 0x00100000 .word ∧ Unmapped c 0x00100000) ∧ ¬ Aligned 0x00100002 .word ∧
      (Aligned 0x000FFFFC .word ∧ InRam c 0x000FFFFC) ∧ (Aligned 0x10000000 .word ∧ ¬ InRam c 0x10000000) ∧
      (Aligned 0x11FFFFFC .word ∧ InMmio c 0x11FFFFFC) ∧ (Aligned 0xFFFFFFFC .word ∧ Unmapped c 0xFFFFFFFC) ∧
      3 < Width.word.bytes := by
  refine ⟨test_test_configuration_valid, ?_⟩
  simp only [Aligned, InMmio, Unmapped, InRam]
  and_intros <;> decide +kernel

/-! ### Witnesses: RV32M, RV32A -/

theorem witness_DivideResults :
    (pair 7 0).x 2 = 0 ∧ ((pair 0x80000000 0xFFFFFFFF).x 1 = 0x80000000 ∧ (pair 0x80000000 0xFFFFFFFF).x 2 = 0xFFFFFFFF) ∧
      (pair 0 1).x 2 ≠ 0 ∧ ¬ ((pair 0x80000000 1).x 1 = 0x80000000 ∧ (pair 0x80000000 1).x 2 = 0xFFFFFFFF) := by
  decide +kernel

theorem witness_LoadReservedReadsAndReserves :
    (opcodeOf 0x1010A1AF = 0b0101111#7 ∧ funct5Of 0x1010A1AF = 0b00010#5 ∧ rs2Of 0x1010A1AF ≠ 0b00000#5) ∧
    (Aligned ((pair 0x000FFFFC 0).x 1) .word ∧ InRam hart.cfg ((pair 0x000FFFFC 0).x 1)) ∧
    ¬ Aligned ((pair 0x000FFFFE 0).x 1) .word ∧
    (Aligned ((pair 0x00100000 0).x 1) .word ∧ ¬ InRam hart.cfg ((pair 0x00100000 0).x 1)) := by
  simp only [Aligned, InRam]
  and_intros <;> decide +kernel

theorem witness_StoreConditionalSucceedsOrFails :
    let s := pair 0x000FFFFC 5
    let held := { s with resvValid := true, resvAddr := 0x000FFFFC }
    s.mem.wf = true ∧ Aligned (s.x 1) .word ∧ InRam s.cfg (s.x 1) ∧ (held.resvValid = true ∧ held.resvAddr = held.x 1) ∧
      ¬ (s.resvValid = true ∧ s.resvAddr = s.x 1) ∧
      ¬ ({ held with resvAddr := 0x000FFFF8 }.resvValid = true ∧ { held with resvAddr := 0x000FFFF8 }.resvAddr = held.x 1) ∧
      ¬ Aligned ((pair 1 0).x 1) .word ∧
      (Aligned ((pair 0x10000000 0).x 1) .word ∧ ¬ InRam s.cfg ((pair 0x10000000 0).x 1)) := by
  simp only [Aligned, InRam]
  and_intros <;> decide +kernel

theorem witness_AmoReadsModifiesWrites :
    let s := pair 0x000FFFFC 0xFFFFFFFF
    s.mem.wf = true ∧ (Aligned (s.x 1) .word ∧ InRam s.cfg (s.x 1)) ∧ ¬ Aligned ((pair 2 0).x 1) .word ∧
      (Aligned ((pair 0x11FFFFFC 0).x 1) .word ∧ ¬ InRam s.cfg ((pair 0x11FFFFFC 0).x 1)) := by
  simp only [Aligned, InRam]
  and_intros <;> decide +kernel

/-- A step that begins an ADDI; an LR.W and an SC.W; an SC.W that traps; a restart. -/
theorem witness_OnlyReservationInstructionsChangeIt :
    ((∃ t, step (hart.placeWord 0x00700193) = .next t ∧ true = true) ∧
      (∀ i, Begins (hart.placeWord 0x00700193) i → i.touchesReservation = false) ∧
      hart.phase ≠ .ready (some .restart)) ∧
    (Aligned ((pair 0x000FFFFC 0).x 1) .word ∧ InRam hart.cfg ((pair 0x000FFFFC 0).x 1)) ∧
    (∃ t, exec (.scW 4 1 2 false false) { pair 2 0 with resvValid := true } = .next t ∧
      decide (t.phase = .ready (some .continues)) = true) ∧
    ∃ t, step { hart with phase := .ready (some .restart), turns := [.call false 0 0], resvValid := true } = .next t ∧
      decide (t.phase ≠ .stopped) = true := by
  refine ⟨⟨exists_next (p := fun _ => true) (by decide +kernel), ?_, by decide⟩,
    ⟨by simp only [Aligned]; decide +kernel, by simp only [InRam]; decide +kernel⟩,
    exists_exec (p := fun t => decide (t.phase = .ready (some .continues))) (by decide +kernel),
    exists_next (p := fun t => decide (t.phase ≠ .stopped)) (by decide +kernel)⟩
  intro i h
  rw [begins_only (w := 0x00700193) (j := .addi 3 0 7) (by decide +kernel) (by decide +kernel) h]
  rfl

/-- An LR.W at `pc` in a running batch, then one step that begins an ADDI. -/
theorem witness_ReservedPairAlwaysSucceeds :
    let s := { (pair 0x1000 0) with pc := 0xFC }.placeWord 0
    let s := { s with pc := 0x100 }.placeWord 0x00700193
    let s := { s with pc := 0xFC }
    Aligned (s.x 1) .word ∧ InRam s.cfg (s.x 1) ∧
      ∃ u t, exec (.lrW 3 1 false false) s = .next u ∧ ReachesKeepingReservation u t ∧ t.x 1 = s.x 1 ∧
        t.resvValid = true := by
  intro s0 s1 s
  refine ⟨by simp only [Aligned]; decide +kernel, by simp only [InRam]; decide +kernel, ?_⟩
  obtain ⟨u, hu, hp⟩ := exists_exec (i := .lrW 3 1 false false) (s := s)
    (p := fun u => (decide (u.fetch = .ok 0x00700193) && decide (u.phase = .running 1)) &&
      nextHas u (fun t => decide (t.x 1 = 0x1000) && t.resvValid)) (by decide +kernel)
  simp only [Bool.and_eq_true, decide_eq_true_eq] at hp
  obtain ⟨t, ht, hq⟩ := exists_next hp.2
  simp only [Bool.and_eq_true, decide_eq_true_eq] at hq
  have hx : s.x 1 = 0x1000 := by decide +kernel
  refine ⟨u, t, hu, .tail .refl ht ?_ ?_, hq.1.trans hx.symm, hq.2⟩
  · intro i h
    rw [begins_only (j := .addi 3 0 7) hp.1.1 (by decide +kernel) h]
    rfl
  · rw [hp.1.2]
    simp

/-! ### Witnesses: system instructions, traps, CSRs -/

/-- `hart` in U mode. -/
def user : State := { hart with priv := .user }

theorem witness_EnvironmentCallAndBreakpointTrap : user.priv = .user ∧ hart.priv = .machine := ⟨rfl, rfl⟩

theorem witness_TrapEntrySavesAndTransfers :
    { Config.testConfig with strictTraps := true }.strictTraps = true ∧ hart.cfg.strictTraps = false ∧
    (let s := { hart with mtip := true, mtie := true, mstatus := { mie := true, mpie := false, mpp := .user } }
     s.mtip = true ∧ s.mtie = true ∧ s.mstatus.mie = true) := ⟨rfl, rfl, rfl, rfl, rfl⟩

theorem witness_MretRestores : hart.priv = .machine ∧ user.priv = .user := ⟨rfl, rfl⟩

theorem witness_WfiWaitsUnlessPending :
    ({ hart with mtip := true, mtie := true }.mtip = true ∧ { hart with mtip := true, mtie := true }.mtie = true) ∧
    ¬ ({ hart with mtip := true }.mtip = true ∧ { hart with mtip := true }.mtie = true) := by decide +kernel

/-- A read-only CSR read and written, a machine CSR in each mode, the lowest and the highest number. -/
theorem witness_CsrInstructionsReadAndWrite :
    CsrAllowed user.priv 0xC00 false ∧ ¬ CsrAllowed user.priv 0xC00 true ∧ ¬ CsrAllowed hart.priv 0xC00 true ∧
    CsrAllowed hart.priv 0x300 true ∧ ¬ CsrAllowed user.priv 0x300 false ∧ CsrAllowed user.priv 0x000 true ∧
    CsrAllowed hart.priv 0xFFF false ∧ ¬ CsrAllowed hart.priv 0xFFF true ∧
    (opcodeOf 0x30004073 = 0b1110011#7 ∧ funct3Of 0x30004073 = 0b100#3) := by
  simp only [CsrAllowed]
  and_intros <;> decide +kernel

theorem witness_StatusAndInterruptCsrs : hart.priv = .machine := rfl

theorem witness_TrapCsrs : hart.priv = .machine := rfl

theorem witness_CounterIdentityAndOtherCsrs :
    (0xF14 : CsrNum) ∈ [0xF11#12, 0xF12#12, 0xF13#12, 0xF14#12] ∧ hart.priv = .machine ∧
    (0xC80 : CsrNum) ∈ [0xC00#12, 0xC80#12, 0xF11#12, 0xF12#12, 0xF13#12, 0xF14#12] ∧
    ((0x7C0 : CsrNum) ∉ Config.implementedCsrs ∧ (0x7C0 : CsrNum) ∉ hart.cfg.diagnosticCsrs) ∧
    (CsrAllowed hart.priv 0x7C0 false ∧ CsrAllowed hart.priv 0x7C0 true) := by
  refine ⟨by decide, rfl, by decide, ⟨by simp [Config.implementedCsrs], by decide +kernel⟩, ?_⟩
  simp only [CsrAllowed]
  and_intros <;> decide +kernel

/-- The most negative number, zero; a string at the end of RAM and an address outside; a key and no key. -/
theorem witness_DiagnosticCsrs :
    hart.cfg.Valid ∧ CsrAllowed hart.priv hart.cfg.csrDbgDec true ∧ CsrAllowed hart.priv hart.cfg.csrDbgDec false ∧
    CsrAllowed hart.priv hart.cfg.csrDbgGetc true ∧ CsrAllowed hart.priv hart.cfg.csrDbgGetc false ∧
    (pair 0x80000000 0).x 1 = 0x80000000 ∧ InRam hart.cfg ((pair 0x000FFFFF 0).x 1) ∧
    ¬ InRam hart.cfg ((pair 0x00100000 0).x 1) ∧ queueAtPoll { hart with kbd := [0x71] } = 0x71 :: [] ∧
    queueAtPoll hart = [] := by
  refine ⟨test_test_configuration_valid, ?_⟩
  simp only [CsrAllowed, InRam, queueAtPoll, arrivals]
  and_intros <;> decide +kernel

/-! ### Witnesses: the batch engine and the rules of the whole machine -/

/-- A call that finds the hart waiting, one that takes the interrupt, one that runs. -/
theorem witness_BatchStartUpdatesTimerThenWaitThenInterrupt :
    (hart.phase = .running 1 ∧ ∃ t, step hart = .next t ∧ true = true) ∧
    (let called := { hart with phase := .ready (some .idle), turns := [.call true 7 3], mtimecmp := 7 }
     called.phase ∈ [Phase.ready none, .rebooted, .ready (some .continues), .ready (some .idle)] ∧
       called.nextTurn = .call true 7 3 ∧
       (∃ t, step { called with wfi := true } = .next t ∧ decide (t.wfi = true) = true) ∧
       (∃ t, step { called with mtie := true, mstatus := { mie := true, mpie := false, mpp := .user } } = .next t ∧
         decide (t.wfi = false ∧ t.mcause = 0x80000007) = true) ∧
       ∃ t, step called = .next t ∧ decide (t.wfi = false ∧ t.phase = .running 3) = true) :=
  ⟨⟨rfl, exists_next (p := fun _ => true) (by decide +kernel)⟩, by decide +kernel, rfl,
    exists_next (p := fun t => decide (t.wfi = true)) (by decide +kernel),
    exists_next (p := fun t => decide (t.wfi = false ∧ t.mcause = 0x80000007)) (by decide +kernel),
    exists_next (p := fun t => decide (t.wfi = false ∧ t.phase = .running 3)) (by decide +kernel)⟩

theorem witness_BatchCallReturnsWithinBudget :
    { hart with phase := .running 0 }.phase = .running 0 ∧ hart.phase = .running 1 := ⟨rfl, rfl⟩

/-- MRET into U mode; out of it by ECALL and by a restart. -/
theorem witness_ModeChangesOnlyByTrapMretReset :
    (∃ t, step (hart.placeWord 0x30200073) = .next t ∧ decide (t.priv = .user) = true) ∧
    (∃ t, step (user.placeWord 0x00000073) = .next t ∧ decide (t.priv = .machine) = true) ∧
    ∃ t, step { user with phase := .ready (some .restart), turns := [.call false 0 0] } = .next t ∧
      decide (t.priv = .machine) = true :=
  ⟨exists_next (p := fun t => decide (t.priv = .user)) (by decide +kernel),
    exists_next (p := fun t => decide (t.priv = .machine)) (by decide +kernel),
    exists_next (p := fun t => decide (t.priv = .machine)) (by decide +kernel)⟩

theorem witness_RegistersChangeOnlyAsDestination :
    ∃ t, step (hart.placeWord 0x00700F93) = .next t ∧ decide (t.x 31 ≠ hart.x 31) = true :=
  exists_next (p := fun t => decide (t.x 31 ≠ hart.x 31)) (by decide +kernel)

/-- A compare store; the first call after a cold start, at which MTIP becomes 1; a call after a reset. -/
theorem witness_TimerStateWriters :
    (hart.phase ≠ .ready (some .restart) ∧
      ∃ t, step ((pair 0x11004004 1).placeWord 0x0020A023) = .next t ∧ decide (t.mtimecmp ≠ 0) = true) ∧
    (∃ t, step { State.reset with turns := [.call false 0 0] } = .next t ∧ decide (t.mtip ≠ false) = true) ∧
    ∃ t, step { State.reset with phase := .rebooted, turns := [.call false 5 0] } = .next t ∧ decide (t.mtime ≠ 0) = true :=
  ⟨⟨by decide, exists_next (p := fun t => decide (t.mtimecmp ≠ 0)) (by decide +kernel)⟩,
    exists_next (p := fun t => decide (t.mtip ≠ false)) (by decide +kernel),
    exists_next (p := fun t => decide (t.mtime ≠ 0)) (by decide +kernel)⟩

theorem witness_PresentationChangesOnlyBySwap :
    ∃ t, step (((pair 0x11300004 0).storeBytes 0x11200000 .word 0x11223344).placeWord 0x0020A023) = .next t ∧
      decide (t.present ≠ []) = true :=
  exists_next (p := fun t => decide (t.present ≠ [])) (by decide +kernel)

/-- Both ways. -/
theorem witness_ConsoleIsAppendOnly :
    (∃ t, step ((pair 0x10000000 0x41).placeWord 0x0020A023) = .next t ∧ decide (t.console ≠ []) = true) ∧
    ∃ t, step (hart.placeWord 0x13955073) = .next t ∧ decide (t.console ≠ []) = true :=
  ⟨exists_next (p := fun t => decide (t.console ≠ [])) (by decide +kernel),
    exists_next (p := fun t => decide (t.console ≠ [])) (by decide +kernel)⟩

/-- Both ways: a CSR instruction that U mode may run, and one it may not. -/
theorem witness_UserModeCannotChangeMachineState :
    user.priv = .user ∧ (∃ t, exec (.csrrw 3 1 0x000) user = .next t ∧ decide (t.priv = .user) = true) ∧
      ∃ t, exec (.csrrw 3 1 0x300) user = .next t ∧ decide (t.priv = .machine) = true :=
  ⟨rfl, exists_exec (p := fun t => decide (t.priv = .user)) (by decide +kernel),
    exists_exec (p := fun t => decide (t.priv = .machine)) (by decide +kernel)⟩

end Sys2Proof.Tests
end

section
/-! PROOF. The hart's state: what an instruction that completes, traps or accesses a CSR leaves, in the words of the
statements; then what changes the reservation (R113) and the CSRs (R121 to R131, R137). -/

namespace Sys2Proof.Machine

open Sys2Proof.Claims

/-! ### From an outcome of `exec` to the words of the statements -/

/-- Completing with `x[rd] <- v` is what the statements call retiring. -/
theorem retires_of_exec {i : Instr} {s : State} {rd : Reg} {v : Word} (h : exec i s = .next (s.retire rd v)) :
    Retires i s rd v := by
  refine ⟨_, h, ⟨fun r => s.x_retire rd r v, ?_⟩, s.retire_pc rd v, ?_, fun a => by rw [State.retire_mem]⟩
  · rintro rfl
    rfl
  · rw [State.retire_pc]
    exact s.retire_eq rd v

/-- Taking an exception is what the statements call a trap taken, in strict mode too. -/
theorem State.takeException_trapTaken (s : State) (e : Exception) : TrapTaken s (s.takeException e) e.cause e.tval := by
  unfold TrapTaken State.takeException
  split
  · rfl
  · exact ⟨rfl, rfl, rfl, rfl, rfl, rfl, rfl, rfl, rfl, rfl⟩

theorem raises_of_exec {i : Instr} {s : State} {e : Exception} (h : exec i s = .next (s.takeException e)) :
    Raises i s e.cause e.tval :=
  ⟨_, h, s.takeException_trapTaken e⟩

/-! ### CSR accesses (R140, R671, R672) -/

/-- The model's access check is R140's. -/
theorem csrLegal_iff {p : Priv} {n : CsrNum} {writes : Bool} : csrLegal p n writes = true ↔ CsrAllowed p n writes := by
  have hmode : (n.extractLsb' 8 2).toNat ≤ p.bits.toNat ↔ p = .machine ∨ n.extractLsb' 8 2 = 0b00#2 := by
    generalize n.extractLsb' 8 2 = m
    revert m
    cases p <;> decide
  simp only [csrLegal, CsrAllowed, Bool.and_eq_true, decide_eq_true_eq, hmode, Bool.not_eq_true',
    Bool.and_eq_false_iff, decide_eq_false_iff_not, not_and, Bool.not_eq_true, Decidable.imp_iff_not_or]

theorem exec_csrr (s : State) (n : CsrNum) (rd : Reg) : exec (.csrrs rd 0 n) s =
    csrAccess (encode (.csrrs rd 0 n)) n rd true false (fun old => old ||| s.x 0) s := rfl

theorem exec_csrw (s : State) (n : CsrNum) (rs1 : Reg) : exec (.csrrw 0 rs1 n) s =
    csrAccess (encode (.csrrw 0 rs1 n)) n 0 false true (fun _ => s.x rs1) s := rfl

/-- An allowed `csrr` of a register whose read has no side effect. -/
theorem csrReads_of_csrRead {s : State} {n : CsrNum} {v : Word} (ha : CsrAllowed s.priv n false)
    (hr : csrRead n s = (v, s)) : CsrReads n s v := by
  intro rd
  refine retires_of_exec ?_
  rw [exec_csrr]
  unfold csrAccess
  rw [if_pos (csrLegal_iff.2 ha), if_pos rfl, hr]
  rfl

/-- An allowed `csrw` leaves what the register's write leaves. -/
theorem csrWrites_of_csrWrite {s t : State} {n : CsrNum} {rs1 : Reg} (ha : CsrAllowed s.priv n true)
    (hw : csrWrite n (s.x rs1) s = t) : CsrWrites n s rs1 t := by
  subst hw
  unfold CsrWrites
  rw [exec_csrw]
  unfold csrAccess
  rw [if_pos (csrLegal_iff.2 ha), ← csrWrite_pc n (s.x rs1) s]
  rfl

/-- In M mode every number may be read. -/
theorem csrReads_machine {s : State} {n : CsrNum} {v : Word} (hm : s.priv = .machine) (hr : csrRead n s = (v, s)) :
    CsrReads n s v :=
  csrReads_of_csrRead ⟨.inl hm, fun hw => nomatch hw.2⟩ hr

/-- In M mode every number but the read-only ones may be written. -/
theorem csrWrites_machine {s t : State} {n : CsrNum} {rs1 : Reg} (hm : s.priv = .machine)
    (hn : n.extractLsb' 10 2 ≠ 0b11#2) (hw : csrWrite n (s.x rs1) s = t) : CsrWrites n s rs1 t :=
  csrWrites_of_csrWrite ⟨.inl hm, fun h => hn h.1⟩ hw

/-- A `csrw` that R140 forbids is an illegal instruction. -/
theorem csrw_raises {s : State} {n : CsrNum} (rs1 : Reg) (ha : ¬ CsrAllowed s.priv n true) :
    Raises (.csrrw 0 rs1 n) s 2 (encode (.csrrw 0 rs1 n)) := by
  refine raises_of_exec (e := .illegalInstruction _) ?_
  rw [exec_csrw]
  unfold csrAccess
  rw [if_neg (mt csrLegal_iff.1 ha)]
  rfl

/-! ### The fields of `mstatus` (R121) -/

theorem Priv.bits_eq (p : Priv) : p.bits = if p = .machine then 0b11#2 else 0b00#2 := by
  cases p <;> rfl

/-- A write of MPP: the two modes there are, or the old mode. -/
theorem Priv.ofBits_getD (b : BitVec 2) (p : Priv) :
    (Priv.ofBits b).getD p = if b = 0b11#2 then .machine else if b = 0b00#2 then .user else p := by
  revert b
  cases p <;> decide

/-! ### The reservation (R113) -/

/-- The reservation of `t` is that of `s`. -/
def KeepsReservation (s t : State) : Prop := t.resvValid = s.resvValid ∧ t.resvAddr = s.resvAddr

/-- An instruction keeps the reservation, or it is an LR.W or SC.W that did not end the batch. -/
theorem Effect.reservation {s t : State} {i : Instr} (h : Effect s i t) :
    KeepsReservation s t ∨ (i.touchesReservation = true ∧ t.phase = s.phase) := by
  cases h with
  | reserve | scStore | scFail => exact .inr ⟨rfl, by simp⟩
  | trap | retire | jump | move | loadDevice | store | storeDevice | amo | mret | csr =>
    exact .inl ⟨by simp, by simp⟩
  | wait => exact .inl ⟨rfl, rfl⟩

theorem hostFirstCall_keepsReservation (s : State) : KeepsReservation s (hostFirstCall s) := by
  obtain ⟨-, h⟩ | ⟨_, _, _, -, h⟩ := hostFirstCall_cases s <;> rw [h] <;> exact ⟨by simp, by simp⟩

theorem hostCall_keepsReservation (s : State) : KeepsReservation s (hostCall s) := by
  obtain h | ⟨_, _, _, -, h⟩ := hostCall_cases s <;> rw [h] <;> exact ⟨by simp, by simp⟩

/-- A step that begins neither LR.W nor SC.W and performs no reset keeps the reservation. -/
theorem step_keepsReservation {s t : State} (h : step s = .next t)
    (hi : ∀ i, Begins s i → i.touchesReservation = false) (hr : s.phase ≠ .ready (some .restart)) :
    KeepsReservation s t := by
  obtain ⟨n, -, ⟨e, rfl⟩ | ⟨i, hb, he⟩⟩ | ⟨-, rfl⟩ | ⟨-, rfl⟩ | ⟨-, rfl⟩ | ⟨hp, -⟩ := step_cases h
  · exact ⟨by simp, by simp⟩
  · obtain hk | ⟨ht, -⟩ := he.reservation
    · exact hk
    · exact absurd ht (by simp [hi i hb])
  · exact ⟨rfl, rfl⟩
  · exact hostFirstCall_keepsReservation s
  · exact hostCall_keepsReservation s
  · exact absurd hp hr

/-- An instruction that ends its batch with a trap keeps the reservation: it is over before LR.W or SC.W acts. -/
theorem exec_trap_keepsReservation {s t : State} {i : Instr} {n : Nat} (hs : s.phase = .running n)
    (h : exec i s = .next t) (ht : t.phase ≠ .running n) : KeepsReservation s t := by
  obtain hk | ⟨-, hp⟩ := (effect_of_exec h).reservation
  · exact hk
  · exact absurd (hp.trans hs) ht

/-- LR.W of an aligned RAM word (R600). -/
theorem exec_lrW_ram {s : State} (rd : Reg) {rs1 : Reg} (aq rl : Bool) (ha : Aligned (s.x rs1) .word)
    (hr : InRam s.cfg (s.x rs1)) :
    exec (.lrW rd rs1 aq rl) s = .next ((s.reserve (s.x rs1)).retire rd (s.loadBytes (s.x rs1) .word)) := by
  have hram : region s.cfg (s.x rs1) = .ram := region_eq_ram.2 hr
  show execLrW rd rs1 aq rl s = _
  unfold execLrW
  rw [memRead_bytes ha (by rw [hram]; exact ReadKind.reaches_ram _) (.inl hram)]

/-- SC.W to an aligned RAM word stores and gives 0, or gives 1, as the reservation says (R601). -/
theorem exec_scW_ram {s : State} (rd : Reg) {rs1 : Reg} (rs2 : Reg) (aq rl : Bool) (ha : Aligned (s.x rs1) .word)
    (hr : InRam s.cfg (s.x rs1)) :
    exec (.scW rd rs1 rs2 aq rl) s = .next
      (if s.reserved (s.x rs1) then (s.clearReservation.storeBytes (s.x rs1) .word (s.x rs2)).retire rd 0
        else s.clearReservation.retire rd 1) := by
  have hram : region s.cfg (s.x rs1) = .ram := region_eq_ram.2 hr
  have hw : writeValue (s.x rs1) .word (s.x rs2) s.clearReservation =
      s.clearReservation.storeBytes (s.x rs1) .word (s.x rs2) := by
    unfold writeValue
    rw [State.clearReservation_cfg, hram]
  show execScW rd rs1 rs2 aq rl s = _
  unfold execScW
  rw [writeCheck_eq_none.2 ⟨ha, by rw [hram]; exact WriteKind.reaches_ram _⟩, hw]
  exact (apply_ite Host.Outcome.next _ _ _).symm

/-- A reset clears the reservation; the host may only stop instead (R801, R802). -/
theorem hostRestart_reservation {s : State} (h : (hostRestart s).phase ≠ .stopped) :
    (hostRestart s).resvValid = false ∧ (hostRestart s).resvAddr = 0 := by
  obtain ⟨-, he⟩ | he := hostRestart_cases s
  · exact absurd (by rw [he]) h
  · rw [he]
    exact ⟨rfl, rfl⟩

/-! ### The statements -/

/-- Settles O41: by the cases of a step, where the only effects that touch the reservation are those of LR.W and SC.W, and
these leave the batch running. -/
theorem onlyReservationInstructionsChangeIt : Obligations.OnlyReservationInstructionsChangeIt := by
  refine ⟨fun s t => step_keepsReservation, ?_, ?_, ?_, ?_⟩
  · intro s rd rs1 aq rl ha hr
    exact ⟨_, exec_lrW_ram rd aq rl ha hr, by simp, by simp⟩
  · intro s rd rs1 rs2 aq rl ha hr
    refine ⟨_, exec_scW_ram rd rs2 aq rl ha hr, ?_⟩
    split <;> simp
  · intro s t i n hs h ht
    refine exec_trap_keepsReservation hs h fun hn => ?_
    rw [hn] at ht
    obtain ht | ⟨_, _, ht⟩ := ht <;> cases ht
  · intro s t hp h ht
    rw [step_restart hp] at h
    cases h
    exact hostRestart_reservation ht

/-- Settles O49: each number names its register, whose read and write are those of R121, R122, R123 and R129. -/
theorem statusAndInterruptCsrs : Obligations.StatusAndInterruptCsrs := by
  refine ⟨fun c image => ⟨rfl, rfl, rfl⟩, fun s rs1 hm => ?_⟩
  refine ⟨?_, ?_, csrReads_machine hm rfl, csrWrites_machine hm (by decide) rfl, csrReads_machine hm rfl,
    csrWrites_machine hm (by decide) rfl, csrReads_machine hm rfl, csrWrites_machine hm (by decide) rfl⟩
  · rw [← Priv.bits_eq]
    exact csrReads_machine hm rfl
  · rw [← Priv.ofBits_getD]
    exact csrWrites_machine hm (by decide) rfl

/-- Settles O50: each number names its register, whose read and write are those of R124 to R128. -/
theorem trapCsrs : Obligations.TrapCsrs := by
  refine ⟨fun s rs1 hm => ?_, fun c image => ⟨rfl, rfl, rfl, rfl, rfl⟩⟩
  exact ⟨csrReads_machine hm rfl, csrWrites_machine hm (by decide) rfl,
    csrReads_machine hm rfl, csrWrites_machine hm (by decide) rfl,
    csrReads_machine hm rfl, csrWrites_machine hm (by decide) rfl,
    csrReads_machine hm rfl, csrWrites_machine hm (by decide) rfl,
    csrReads_machine hm rfl, csrWrites_machine hm (by decide) rfl⟩

/-- Settles O51: the counters are readable in both modes, every number with `n[11:10] = 0b11` refuses a write, and an
"other" number reads 0 and is not written. -/
theorem counterIdentityAndOtherCsrs : Obligations.CounterIdentityAndOtherCsrs := by
  refine ⟨fun s => ⟨?_, ?_⟩, ?_, ?_, ?_⟩
  · exact csrReads_of_csrRead ⟨.inr (by decide), by simp⟩ rfl
  · exact csrReads_of_csrRead ⟨.inr (by decide), by simp⟩ rfl
  · intro s n hn hm
    refine csrReads_machine hm ?_
    simp only [List.mem_cons, List.not_mem_nil, or_false] at hn
    obtain rfl | rfl | rfl | rfl := hn <;> rfl
  · intro s n rs1 hn
    have hro : n.extractLsb' 10 2 = 0b11#2 := by
      revert n
      decide
    exact csrw_raises rs1 fun ha => ha.2 ⟨hro, rfl⟩
  · intro s n rs1 hi hd
    have hother : csrNamed s.cfg n = .other := csrNamed_other hi hd
    refine ⟨fun ha => csrReads_of_csrRead ha ?_, fun ha => csrWrites_of_csrWrite ha ?_⟩
    · unfold csrRead
      rw [hother]
    · unfold csrWrite
      rw [hother]

end Sys2Proof.Machine
end


section
/-! PROOF. Loads, stores and atomics in the words of the statements: the exceptions of an access in their order (R206, R207,
R257), a load the dispatcher intercepts, a store it intercepts, a store that reaches plain bytes; then the timer, `vblank`,
the UART and the swap (R241 to R251). -/

namespace Sys2Proof.Machine

open Sys2Proof.Claims

/-! ### Regions and alignment (R201, R206, R207) -/

theorem region_eq_unmapped {c : Config} {a : Word} : region c a = .unmapped ↔ Unmapped c a := by
  have hram : region c a = .ram ↔ InRam c a := region_eq_ram
  have hmmio : region c a = .mmio ↔ InMmio c a := region_eq_mmio
  unfold Unmapped
  rw [← hram, ← hmmio]
  cases region c a <;> simp

/-- The bytes of an aligned access do not wrap past 2^32. -/
theorem aligned_toNat_add {a : Word} {w : Width} (ha : Aligned a w) {k : Nat} (hk : k < w.bytes) :
    (a + BitVec.ofNat 32 k).toNat = a.toNat + k := by
  unfold Aligned at ha
  have ha32 := a.isLt
  rw [BitVec.toNat_add, BitVec.toNat_ofNat]
  cases w <;> simp only [Width.bytes] at ha hk <;> omega

section Straddle

variable {c : Config} {a : Word} {w : Width} {k : Nat}

/-- An aligned access lies as a whole inside or outside a span whose base and size are multiples of 4. -/
theorem aligned_span_iff {base size : Nat} (hbase : base % 4 = 0) (hsize : size % 4 = 0) (ha : Aligned a w)
    (hk : k < w.bytes) :
    (base ≤ (a + BitVec.ofNat 32 k).toNat ∧ (a + BitVec.ofNat 32 k).toNat < base + size) ↔
      base ≤ a.toNat ∧ a.toNat < base + size := by
  rw [aligned_toNat_add ha hk]
  unfold Aligned at ha
  cases w <;> simp only [Width.bytes] at ha hk <;> omega

theorem inRam_add_iff (hc : c.Valid) (ha : Aligned a w) (hk : k < w.bytes) :
    InRam c (a + BitVec.ofNat 32 k) ↔ InRam c a := by
  obtain ⟨⟨hbase, hsize, -⟩, -⟩ := hc
  exact aligned_span_iff hbase hsize ha hk

theorem inMmio_add_iff (hc : c.Valid) (ha : Aligned a w) (hk : k < w.bytes) :
    InMmio c (a + BitVec.ofNat 32 k) ↔ InMmio c a := by
  have hram := inRam_add_iff hc ha hk
  obtain ⟨⟨-, -, hbase, hsize, -⟩, -⟩ := hc
  exact and_congr (not_congr hram) (aligned_span_iff hbase hsize ha hk)

end Straddle

/-- The offsets of the word-wide device registers: all but the UART's (R13). -/
def wordRegisters (c : Config) : List Word :=
  [c.clintCmpLoOff, c.clintCmpHiOff, c.clintTimeLoOff, c.clintTimeHiOff, c.sysconOff, c.fbVblankOff, c.fbSwapOff]

theorem wordRegisters_subset {c : Config} : ∀ off ∈ wordRegisters c, off.toNat ∈ c.deviceOffsets := by
  simp [wordRegisters]

/-- A word-wide device register's address is aligned for every width. -/
theorem wordRegister_aligned {c : Config} (hc : c.Valid) {off : Word} (ho : off ∈ wordRegisters c) (w : Width) :
    Aligned (c.mmioBase + off) w := by
  have haddr := (device_address hc (wordRegisters_subset off ho)).1
  obtain ⟨⟨-, -, hbase, -⟩, -, -, ⟨hcmpLo, hcmpHi, htimeLo, htimeHi, hsyscon, hvblank, hswap, -⟩, -⟩ := hc
  have hoff : ∀ off ∈ wordRegisters c, off.toNat % 4 = 0 := by
    simpa [wordRegisters] using ⟨hcmpLo, hcmpHi, htimeLo, htimeHi, hsyscon, hvblank, hswap⟩
  have h4 := hoff off ho
  unfold Aligned
  rw [haddr]
  cases w <;> simp only [Width.bytes] <;> omega

/-! ### Loads and stores as one operation each -/

/-- The model's effective address is the statements'. -/
theorem State.effectiveAddr_eq (s : State) (rs1 : Reg) (imm : BitVec 12) :
    s.effectiveAddr rs1 imm = effective s rs1 imm := rfl

theorem exec_load (f : LoadForm) (rd rs1 : Reg) (imm : BitVec 12) (s : State) :
    exec (f.instr rd rs1 imm) s = loadInto f.width f.extend rd rs1 imm s := by
  cases f <;> rfl

theorem exec_store (f : StoreForm) (rs1 rs2 : Reg) (imm : BitVec 12) (s : State) :
    exec (f.instr rs1 rs2 imm) s = storeFrom f.width rs1 rs2 imm s := by
  cases f <;> rfl

/-! ### The exceptions of an access -/

/-- LR.W reaches RAM alone (R257). -/
theorem ReadKind.lr_reaches_eq_false {r : Region} : ReadKind.lr.reaches r = false ↔ r ≠ .ram := by
  cases r <;> decide

/-- SC.W and the AMOs reach RAM alone (R257). -/
theorem WriteKind.amo_reaches_eq_false {r : Region} : WriteKind.amo.reaches r = false ↔ r ≠ .ram := by
  cases r <;> decide

/-- A plain store reaches both regions. -/
theorem WriteKind.store_reaches {r : Region} : WriteKind.store.reaches r = true ↔ r ≠ .unmapped := by
  cases r <;> decide

/-- An AMO's read is checked as its write is. -/
theorem readCheck_amo (c : Config) (a : Word) (w : Width) : readCheck c a w .amo = writeCheck c a w .amo := by
  unfold readCheck writeCheck
  cases region c a <;> rfl

section Raises

variable {s : State} {rs1 : Reg} {e : Exception}

theorem load_raises (f : LoadForm) (rd : Reg) {imm : BitVec 12}
    (h : readCheck s.cfg (effective s rs1 imm) f.width .load = some e) :
    Raises (f.instr rd rs1 imm) s e.cause e.tval := by
  refine raises_of_exec ?_
  rw [exec_load]
  unfold loadInto
  rw [State.effectiveAddr_eq, memRead_error.2 h]
  rfl

theorem store_raises (f : StoreForm) (rs2 : Reg) {imm : BitVec 12}
    (h : writeCheck s.cfg (effective s rs1 imm) f.width .store = some e) :
    Raises (f.instr rs1 rs2 imm) s e.cause e.tval := by
  refine raises_of_exec ?_
  rw [exec_store]
  unfold storeFrom
  rw [State.effectiveAddr_eq, memWrite_error.2 h]
  rfl

theorem lrW_raises (rd : Reg) (aq rl : Bool) (h : readCheck s.cfg (s.x rs1) .word .lr = some e) :
    Raises (.lrW rd rs1 aq rl) s e.cause e.tval := by
  refine raises_of_exec ?_
  show execLrW rd rs1 aq rl s = _
  unfold execLrW
  rw [memRead_error.2 h]
  rfl

theorem scW_raises (rd rs2 : Reg) (aq rl : Bool) (h : writeCheck s.cfg (s.x rs1) .word .amo = some e) :
    Raises (.scW rd rs1 rs2 aq rl) s e.cause e.tval := by
  refine raises_of_exec ?_
  show execScW rd rs1 rs2 aq rl s = _
  unfold execScW
  rw [h]
  rfl

theorem amo_raises {i : Instr} {op : Word → Word → Word} {rd rs2 : Reg} (hi : exec i s = amoWith op rd rs1 rs2 s)
    (h : writeCheck s.cfg (s.x rs1) .word .amo = some e) : Raises i s e.cause e.tval := by
  refine raises_of_exec ?_
  rw [hi]
  unfold amoWith
  rw [memRead_error.2 ((readCheck_amo _ _ _).trans h)]
  rfl

/-- The atomics that store: SC.W and the nine AMOs. -/
def storingAtomics (rd rs1 rs2 : Reg) (aq rl : Bool) : List Instr :=
  [.scW rd rs1 rs2 aq rl, .amoswapW rd rs1 rs2 aq rl, .amoaddW rd rs1 rs2 aq rl, .amoxorW rd rs1 rs2 aq rl,
    .amoandW rd rs1 rs2 aq rl, .amoorW rd rs1 rs2 aq rl, .amominW rd rs1 rs2 aq rl, .amomaxW rd rs1 rs2 aq rl,
    .amominuW rd rs1 rs2 aq rl, .amomaxuW rd rs1 rs2 aq rl]

/-- They raise what the check of their write answers, whether or not SC.W holds a reservation (R601, R603). -/
theorem storingAtomics_raise (rd rs2 : Reg) (aq rl : Bool) (h : writeCheck s.cfg (s.x rs1) .word .amo = some e) :
    ∀ i ∈ storingAtomics rd rs1 rs2 aq rl, Raises i s e.cause e.tval := by
  unfold storingAtomics
  simp only [List.forall_mem_cons, List.not_mem_nil, false_imp_iff, implies_true, and_true]
  exact ⟨scW_raises rd rs2 aq rl h, amo_raises (op := fun _ b => b) rfl h, amo_raises (op := (· + ·)) rfl h,
    amo_raises (op := (· ^^^ ·)) rfl h, amo_raises (op := (· &&& ·)) rfl h, amo_raises (op := (· ||| ·)) rfl h,
    amo_raises (op := minSigned) rfl h, amo_raises (op := maxSigned) rfl h, amo_raises (op := minUnsigned) rfl h,
    amo_raises (op := maxUnsigned) rfl h⟩

end Raises

/-- Settles O34: each access raises what its check answers, and the check looks at the alignment before the region; the
regions begin and end at multiples of 4, so an aligned access is inside one or outside both. -/
theorem memoryChecksComeInOrder : Obligations.MemoryChecksComeInOrder := by
  refine ⟨fun s rd rs1 rs2 imm aq rl => ⟨?loads, ?stores, ?misaligned, ?outside⟩, ?straddle⟩
  case loads =>
    refine fun f => ⟨fun ha => load_raises f rd (readCheck_misaligned .load ha), fun ha hu => ?_⟩
    exact load_raises f rd (readCheck_unreached (k := .load) ha (by rw [region_eq_unmapped.2 hu]; rfl))
  case stores =>
    refine fun f => ⟨fun ha => store_raises f rs2 (writeCheck_misaligned .store ha), fun ha hu => ?_⟩
    exact store_raises f rs2 (writeCheck_unreached (k := .store) ha (by rw [region_eq_unmapped.2 hu]; rfl))
  case misaligned =>
    exact fun ha => ⟨lrW_raises rd aq rl (readCheck_misaligned .lr ha),
      storingAtomics_raise rd rs2 aq rl (writeCheck_misaligned .amo ha)⟩
  case outside =>
    intro ha hr
    have hram : region s.cfg (s.x rs1) ≠ .ram := mt region_eq_ram.1 hr
    exact ⟨lrW_raises rd aq rl (readCheck_unreached ha (ReadKind.lr_reaches_eq_false.2 hram)),
      storingAtomics_raise rd rs2 aq rl (writeCheck_unreached ha (WriteKind.amo_reaches_eq_false.2 hram))⟩
  case straddle =>
    intro c a w hc ha k hk
    unfold Unmapped
    rw [inRam_add_iff hc ha hk, inMmio_add_iff hc ha hk]
    exact ⟨id, id, id⟩

/-! ### Intercepted loads and stores (R233, R237, R240) -/

/-- A load extends the low bytes of the device's value, so the bits above them do not matter. -/
theorem extend_trunc (f : LoadForm) (v : Word) : f.extend (f.width.trunc v) = f.extend v := by
  cases f <;> simp [LoadForm.extend, LoadForm.width, Width.trunc, zext8, zext16]

/-- A load that the dispatcher intercepts gives what the device gives, with its side effect. -/
theorem exec_load_port {f : LoadForm} {s : State} (rd : Reg) {rs1 : Reg} {imm : BitVec 12} {p : LoadPort}
    (ha : Aligned (effective s rs1 imm) f.width) (hr : InMmio s.cfg (effective s rs1 imm))
    (hp : loadPort s.cfg (effective s rs1 imm) = some p) :
    exec (f.instr rd rs1 imm) s = .next ((deviceLoad p s).2.retire rd (f.extend (deviceLoad p s).1)) := by
  rw [exec_load, ← extend_trunc f]
  unfold loadInto
  rw [State.effectiveAddr_eq, memRead_port ha (region_eq_mmio.2 hr) hp]

/-- A store that the dispatcher intercepts is the device's action on the full register value. -/
theorem exec_store_port {f : StoreForm} {s : State} {rs1 : Reg} (rs2 : Reg) {imm : BitVec 12} {p : StorePort}
    (ha : Aligned (effective s rs1 imm) f.width) (hr : InMmio s.cfg (effective s rs1 imm))
    (hp : storePort s.cfg (effective s rs1 imm) = some p) :
    exec (f.instr rs1 rs2 imm) s = .next (deviceStore p f.width (s.x rs2) s).advance := by
  rw [exec_store]
  unfold storeFrom
  rw [State.effectiveAddr_eq, memWrite_port ha (region_eq_mmio.2 hr) hp]

/-- A load at the address of the port `p` is `p`'s. -/
theorem exec_load_at {f : LoadForm} {s : State} (rd : Reg) {rs1 : Reg} {imm : BitVec 12} (p : LoadPort)
    (hc : s.cfg.Valid) (ha : Aligned (effective s rs1 imm) f.width)
    (he : effective s rs1 imm = s.cfg.mmioBase + p.offset s.cfg) :
    exec (f.instr rd rs1 imm) s = .next ((deviceLoad p s).2.retire rd (f.extend (deviceLoad p s).1)) :=
  exec_load_port rd ha (he ▸ region_eq_mmio.1 (p.region hc)) (he ▸ loadPort_offset hc p)

/-- A store at the address of the port `p` is `p`'s. -/
theorem exec_store_at {f : StoreForm} {s : State} {rs1 : Reg} (rs2 : Reg) {imm : BitVec 12} (p : StorePort)
    (hc : s.cfg.Valid) (ha : Aligned (effective s rs1 imm) f.width)
    (he : effective s rs1 imm = s.cfg.mmioBase + p.offset s.cfg) :
    exec (f.instr rs1 rs2 imm) s = .next (deviceStore p f.width (s.x rs2) s).advance :=
  exec_store_port rs2 ha (he ▸ region_eq_mmio.1 (p.region hc)) (he ▸ storePort_offset hc p)

/-- Retiring after a side effect that leaves the registers, as every device's does. -/
theorem registerWritten_retire {s s' : State} (h : s'.regs = s.regs) (rd : Reg) (v : Word) :
    RegisterWritten s (s'.retire rd v) rd v := by
  refine ⟨fun r => ?_, ?_⟩
  · rw [State.x_retire, State.x_congr h]
  · rintro rfl
    exact h

/-- A load of a port without a side effect retires with the port's value. -/
theorem load_retires_at {f : LoadForm} {s : State} (rd : Reg) {rs1 : Reg} {imm : BitVec 12} (p : LoadPort)
    (hc : s.cfg.Valid) (ha : Aligned (effective s rs1 imm) f.width)
    (he : effective s rs1 imm = s.cfg.mmioBase + p.offset s.cfg) (hs : (deviceLoad p s).2 = s) :
    Retires (f.instr rd rs1 imm) s rd (f.extend (deviceLoad p s).1) := by
  refine retires_of_exec ?_
  rw [exec_load_at rd p hc ha he, hs]

/-! ### Stores that reach plain bytes (R235, R236, R240) -/

/-- A store that no device takes writes bytes. -/
theorem exec_store_bytes {f : StoreForm} {s : State} {rs1 : Reg} (rs2 : Reg) {imm : BitVec 12}
    (ha : Aligned (effective s rs1 imm) f.width) (hr : region s.cfg (effective s rs1 imm) ≠ .unmapped)
    (hp : region s.cfg (effective s rs1 imm) = .ram ∨ storePort s.cfg (effective s rs1 imm) = none) :
    exec (f.instr rs1 rs2 imm) s = .next (s.storeBytes (effective s rs1 imm) f.width (s.x rs2)).advance := by
  rw [exec_store]
  unfold storeFrom
  rw [State.effectiveAddr_eq, memWrite_bytes ha (WriteKind.store_reaches.2 hr) hp]

/-- What such a store leaves in memory. -/
theorem State.storeBytes_bytesStored {s : State} (hm : s.mem.wf = true) (a : Word) (w : Width) (v : Word) :
    BytesStored s (s.storeBytes a w v).advance a w v :=
  ⟨fun _ hk => Memory.read_writeLE_inside hm a.toNat v hk, fun _ hb => Memory.read_writeLE_outside s.mem v hb⟩

/-- A device register whose loads only are intercepted takes a store as backing bytes. -/
theorem exec_store_at_loadPort {f : StoreForm} {s : State} {rs1 : Reg} (rs2 : Reg) {imm : BitVec 12} (q : LoadPort)
    (hq : ∀ p : StorePort, q.index ≠ p.index) (hc : s.cfg.Valid) (ha : Aligned (effective s rs1 imm) f.width)
    (he : effective s rs1 imm = s.cfg.mmioBase + q.offset s.cfg) :
    exec (f.instr rs1 rs2 imm) s = .next (s.storeBytes (effective s rs1 imm) f.width (s.x rs2)).advance := by
  have hnone : storePort s.cfg (s.cfg.mmioBase + q.offset s.cfg) = none :=
    storePort_eq_none.2 fun p => device_ne hc (hq p) (q.offset_index _) (p.offset_index _)
  refine exec_store_bytes rs2 ha ?_ (.inr (he ▸ hnone))
  rw [he, q.region hc]
  exact nofun

/-! ### The CLINT (R245 to R248) -/

/-- No instruction writes `mtime`. -/
theorem Effect.mtime_eq {s t : State} {i : Instr} (h : Effect s i t) : t.mtime = s.mtime := by
  cases h with
  | wait => rfl
  | trap | retire | jump | move | loadDevice | store | storeDevice | reserve | scStore | scFail | amo | mret | csr => simp

/-- No step inside a batch changes `mtime`. -/
theorem step_running_mtime {s t : State} {left : Nat} (hp : s.phase = .running left) (h : step s = .next t) :
    t.mtime = s.mtime := by
  obtain ⟨n, -, ⟨e, rfl⟩ | ⟨i, -, he⟩⟩ | ⟨-, rfl⟩ | ⟨hp', -⟩ | ⟨hp' | hp' | hp', -⟩ | ⟨hp', -⟩ := step_cases h
  · simp
  · exact he.mtime_eq
  · rfl
  all_goals exact nomatch hp.symm.trans hp'

/-- Settles O25: inside a batch only instructions run, and none writes `mtime`; a CLINT load is intercepted at its own
address and has no side effect. -/
theorem clintLoadsGiveTimerHalves : Obligations.ClintLoadsGiveTimerHalves := by
  refine ⟨fun s t left => step_running_mtime, fun f s rd rs1 imm hc ha => ⟨?_, ?_, ?_, ?_⟩⟩ <;> intro he
  · exact load_retires_at rd .timeLo hc ha he rfl
  · exact load_retires_at rd .timeHi hc ha he rfl
  · exact load_retires_at rd .cmpLo hc ha he rfl
  · exact load_retires_at rd .cmpHi hc ha he rfl

/-- Settles O28: each store is intercepted at its own address and is the action of its device. -/
theorem uartAndClintStores : Obligations.UartAndClintStores := by
  refine fun f s rs1 rs2 imm hc ha => ⟨?uart, ?low, ?high⟩ <;> intro he
  case uart =>
    rw [exec_store_at rs2 .uartData hc ha he, ← BitVec.setWidth_eq_extractLsb' (by decide)]
    rfl
  case low =>
    refine ⟨_, exec_store_at rs2 .cmpLo hc ha he, ?_, ?_, rfl⟩
    · exact BitVec.extractLsb'_append_eq_right
    · exact BitVec.extractLsb'_append_eq_left
  case high =>
    refine ⟨_, exec_store_at rs2 .cmpHi hc ha he, ?_, ?_, rfl⟩
    · exact BitVec.extractLsb'_append_eq_left
    · exact BitVec.extractLsb'_append_eq_right

/-- Settles O32: stores to the timer registers are not intercepted, so they write bytes, while a later load is intercepted
and gives `mtime`, which no store writes. -/
theorem timerStoresReachBackingBytesOnly : Obligations.TimerStoresReachBackingBytesOnly := by
  intro f g s rs1 rs2 rd imm hc hm ea hea
  have hal : ∀ w : Width, Aligned ea w := fun w => by
    obtain he | he := hea <;> exact he ▸ wordRegister_aligned hc (by simp [wordRegisters]) w
  have hexec : exec (f.instr rs1 rs2 imm) s = .next (s.storeBytes ea f.width (s.x rs2)).advance := by
    obtain he | he := hea
    · exact exec_store_at_loadPort rs2 .timeLo (fun p => by cases p <;> decide) hc (hal _) he
    · exact exec_store_at_loadPort rs2 .timeHi (fun p => by cases p <;> decide) hc (hal _) he
  refine ⟨_, hexec, rfl, s.storeBytes_bytesStored hm _ _ _, rfl, fun he => ?_, fun he => ?_⟩
  · exact load_retires_at rd .timeLo hc (hal _) he rfl
  · exact load_retires_at rd .timeHi hc (hal _) he rfl

/-! ### The framebuffer (R250, R251) -/

/-- A flag fits in every width and its top bit is 0. -/
theorem extend_truthWord (f : LoadForm) (b : Bool) : f.extend (truthWord b) = if b then 1 else 0 := by
  cases f <;> cases b <;> rfl

/-- Settles O26: a vblank load is intercepted and is the device's read-and-clear; a store there is not intercepted. -/
theorem vblankLoadReturnsAndClears : Obligations.VblankLoadReturnsAndClears := by
  have hal : ∀ {c : Config}, c.Valid → ∀ w, Aligned (c.mmioBase + c.fbVblankOff) w := fun hc =>
    wordRegister_aligned hc (by simp [wordRegisters])
  constructor
  · intro f s rd rs1 imm hc he
    have hexec := exec_load_at rd .vblank hc (f := f) (he ▸ hal hc _) he
    rw [← extend_truthWord f]
    refine ⟨_, hexec, registerWritten_retire rfl rd _, State.retire_pc _ _ _, State.retire_vblank _ _ _, ?_⟩
    rw [State.retire_pc, State.retire_vblank]
    exact State.retire_eq _ _ _
  · intro f s rs1 rs2 imm hc hm he
    have hexec := exec_store_at_loadPort rs2 .vblank (fun p => by cases p <;> decide) hc (f := f) (he ▸ hal hc _) he
    exact ⟨_, hexec, s.storeBytes_bytesStored hm _ _ _, rfl⟩

/-- Settles O29: the swap store is intercepted, and the presentation buffer becomes the slice of the pixel region. -/
theorem swapCopiesPixelRegion : Obligations.SwapCopiesPixelRegion := by
  intro f s rs1 rs2 imm hc he
  have hal : Aligned (effective s rs1 imm) f.width := he ▸ wordRegister_aligned hc (by simp [wordRegisters]) _
  refine ⟨_, exec_store_at rs2 .swap hc hal he, rfl, fun k hk => ?_, rfl⟩
  exact (Memory.read_slice s.mem _ _ k).trans (if_pos hk)

end Sys2Proof.Machine
end


section
/-! PROOF. The decoder against the opcode table of R311: a word that decodes fits a row, a word that fits a row decodes to that
row's instruction; and the near words of R321. -/

namespace Sys2Proof

open Sys2Proof.Claims

/-! ### The major opcode map (R310) -/

section MajorOpcode

variable {w : Word}

theorem decode_lui (h : opcodeOf w = 0b0110111#7) : decode w = .ok (.lui (rdOf w) (imm20Of w)) := by
  simp [decode, length_bits, h]

theorem decode_auipc (h : opcodeOf w = 0b0010111#7) : decode w = .ok (.auipc (rdOf w) (imm20Of w)) := by
  simp [decode, length_bits, h]

theorem decode_jal (h : opcodeOf w = 0b1101111#7) : decode w = .ok (.jal (rdOf w) (immJOf w)) := by
  simp [decode, length_bits, h]

theorem decode_eq_decodeOpImm (h : opcodeOf w = 0b0010011#7) : decode w = decodeOpImm w := by
  simp [decode, length_bits, h]

theorem decode_eq_decodeOp (h : opcodeOf w = 0b0110011#7) : decode w = decodeOp w := by
  simp [decode, length_bits, h]

theorem decode_eq_decodeJalr (h : opcodeOf w = 0b1100111#7) : decode w = decodeJalr w := by
  simp [decode, length_bits, h]

theorem decode_eq_decodeBranch (h : opcodeOf w = 0b1100011#7) : decode w = decodeBranch w := by
  simp [decode, length_bits, h]

theorem decode_eq_decodeLoad (h : opcodeOf w = 0b0000011#7) : decode w = decodeLoad w := by
  simp [decode, length_bits, h]

theorem decode_eq_decodeStore (h : opcodeOf w = 0b0100011#7) : decode w = decodeStore w := by
  simp [decode, length_bits, h]

theorem decode_eq_decodeAmo (h : opcodeOf w = 0b0101111#7) : decode w = decodeAmo w := by
  simp [decode, length_bits, h]

theorem decode_eq_decodeMiscMem (h : opcodeOf w = 0b0001111#7) : decode w = decodeMiscMem w := by
  simp [decode, length_bits, h]

theorem decode_eq_decodeSystem (h : opcodeOf w = 0b1110011#7) : decode w = decodeSystem w := by
  simp [decode, length_bits, h]

end MajorOpcode

/-! ### A word that decodes fits a row -/

/-- The word fits the mask and match of some row (R311). -/
def FitsRow (w : Word) : Prop := ∃ r ∈ opcodeRows, r.Spells w

/-- The table has a row with this match and mask, which `decide` looks up. -/
abbrev HasRow (value mask : Word) : Prop := ∃ r ∈ opcodeRows, r.value = value ∧ r.mask = mask

section Fits

variable {w value mask : Word} {i : Instr}

theorem HasRow.fits (hr : HasRow value mask) (hw : w &&& mask = value) : FitsRow w := by
  obtain ⟨r, hmem, rfl, rfl⟩ := hr
  exact ⟨r, hmem, hw⟩

theorem fits_opcode {op : BitVec 7} (hop : opcodeOf w = op) (hr : HasRow (encodeR 0 0 0 0 0 op) 0x0000007F) : FitsRow w :=
  hr.fits ((spells_opcode w op).2 hop)

theorem fits_funct3 {op : BitVec 7} {f3 : BitVec 3} (hop : opcodeOf w = op) (h3 : funct3Of w = f3)
    (hr : HasRow (encodeR 0 0 0 f3 0 op) 0x0000707F) : FitsRow w :=
  hr.fits ((spells_funct3 w f3 op).2 ⟨hop, h3⟩)

theorem fits_funct7 {op f7 : BitVec 7} {f3 : BitVec 3} (hop : opcodeOf w = op) (h3 : funct3Of w = f3) (h7 : funct7Of w = f7)
    (hr : HasRow (encodeR f7 0 0 f3 0 op) 0xFE00707F) : FitsRow w :=
  hr.fits ((spells_funct7 w f7 f3 op).2 ⟨hop, h3, h7⟩)

theorem fits_funct5 {f5 : BitVec 5} (hop : opcodeOf w = 0b0101111#7) (h3 : funct3Of w = 0b010#3) (h5 : funct5Of w = f5)
    (hr : HasRow (encodeAmo f5 false false 0 0 0) 0xF800707F) : FitsRow w :=
  hr.fits ((spells_funct5 w f5).2 ⟨hop, h3, h5⟩)

theorem fits_word (hw : w = value) (hr : HasRow value 0xFFFFFFFF) : FitsRow w := hr.fits ((spells_word w value).2 hw)

theorem fits_of_decodeOpImm (hop : opcodeOf w = 0b0010011#7) (h : decodeOpImm w = .ok i) : FitsRow w := by
  unfold decodeOpImm at h
  split at h
  case h_7 h3 =>
    split at h
    · exact fits_funct7 hop h3 ‹_› (by decide)
    · cases h
  case h_8 h3 =>
    split at h
    · exact fits_funct7 hop h3 ‹_› (by decide)
    · split at h
      · exact fits_funct7 hop h3 ‹_› (by decide)
      · cases h
  case h_9 => cases h
  all_goals exact fits_funct3 hop ‹_› (by decide)

theorem fits_of_decodeOp (hop : opcodeOf w = 0b0110011#7) (h : decodeOp w = .ok i) : FitsRow w := by
  unfold decodeOp at h
  split at h
  case h_19 => cases h
  all_goals exact fits_funct7 hop ‹_› ‹_› (by decide)

theorem fits_of_decodeJalr (hop : opcodeOf w = 0b1100111#7) (h : decodeJalr w = .ok i) : FitsRow w := by
  unfold decodeJalr at h
  split at h
  · exact fits_funct3 hop ‹_› (by decide)
  · cases h

theorem fits_of_decodeBranch (hop : opcodeOf w = 0b1100011#7) (h : decodeBranch w = .ok i) : FitsRow w := by
  unfold decodeBranch at h
  split at h
  case h_7 => cases h
  all_goals exact fits_funct3 hop ‹_› (by decide)

theorem fits_of_decodeLoad (hop : opcodeOf w = 0b0000011#7) (h : decodeLoad w = .ok i) : FitsRow w := by
  unfold decodeLoad at h
  split at h
  case h_6 => cases h
  all_goals exact fits_funct3 hop ‹_› (by decide)

theorem fits_of_decodeStore (hop : opcodeOf w = 0b0100011#7) (h : decodeStore w = .ok i) : FitsRow w := by
  unfold decodeStore at h
  split at h
  case h_4 => cases h
  all_goals exact fits_funct3 hop ‹_› (by decide)

theorem fits_of_decodeAmo (hop : opcodeOf w = 0b0101111#7) (h : decodeAmo w = .ok i) : FitsRow w := by
  unfold decodeAmo at h
  split at h
  case isFalse => cases h
  case isTrue h3 =>
    split at h
    case h_1 h5 =>
      split at h
      case isTrue h2 =>
        have hr : HasRow 0x1000202F 0xF9F0707F := by decide
        exact hr.fits ((spells_loadReserved w).2 ⟨hop, h3, h5, h2⟩)
      case isFalse => cases h
    case h_12 => cases h
    all_goals exact fits_funct5 hop h3 ‹_› (by decide)

theorem fits_of_decodeMiscMem (hop : opcodeOf w = 0b0001111#7) (h : decodeMiscMem w = .ok i) : FitsRow w := by
  unfold decodeMiscMem at h
  split at h
  case h_3 => cases h
  all_goals exact fits_funct3 hop ‹_› (by decide)

theorem fits_of_decodeSystem (hop : opcodeOf w = 0b1110011#7) (h : decodeSystem w = .ok i) : FitsRow w := by
  unfold decodeSystem at h
  split at h
  case h_1 =>
    split_ifs at h
    all_goals exact fits_word ‹_› (by decide)
  case h_8 => cases h
  all_goals exact fits_funct3 hop ‹_› (by decide)

theorem fits_of_decode (h : decode w = .ok i) : FitsRow w := by
  unfold decode at h
  split at h
  case isFalse => cases h
  case isTrue =>
    split at h
    case h_1 hop => exact fits_opcode hop (by decide)
    case h_2 hop => exact fits_opcode hop (by decide)
    case h_3 hop => exact fits_of_decodeOpImm hop h
    case h_4 hop => exact fits_of_decodeOp hop h
    case h_5 hop => exact fits_opcode hop (by decide)
    case h_6 hop => exact fits_of_decodeJalr hop h
    case h_7 hop => exact fits_of_decodeBranch hop h
    case h_8 hop => exact fits_of_decodeLoad hop h
    case h_9 hop => exact fits_of_decodeStore hop h
    case h_10 hop => exact fits_of_decodeAmo hop h
    case h_11 hop => exact fits_of_decodeMiscMem hop h
    case h_12 hop => exact fits_of_decodeSystem hop h
    case h_13 => cases h

theorem illegal_of_not_fitsRow (h : ¬ FitsRow w) : Illegal w := by
  cases hd : decode w with
  | ok i => exact absurd (fits_of_decode hd) h
  | error e => exact ⟨e, hd⟩

end Fits

/-! ### A word that fits a row decodes to that row's instruction -/

/-- The word decodes to the instruction the table names so. -/
def DecodesAs (w : Word) (name : String) : Prop := ∃ i, decode w = .ok i ∧ i.mnemonic = name

section Decodes

variable {r : Row} {w : Word}

theorem decodesAs_of_spells_opcode (hr : r ∈ opcodeRows.filter (·.mask = 0x0000007F)) (hs : r.Spells w) :
    DecodesAs w r.mnemonic := by
  have hop := (spells_opcode w (opcodeOf r.value)).1
  fin_cases hr
  · exact ⟨_, decode_lui (hop hs), rfl⟩
  · exact ⟨_, decode_auipc (hop hs), rfl⟩
  · exact ⟨_, decode_jal (hop hs), rfl⟩

theorem decodesAs_of_spells_funct3 (hr : r ∈ opcodeRows.filter (·.mask = 0x0000707F)) (hs : r.Spells w) :
    DecodesAs w r.mnemonic := by
  have hfields := (spells_funct3 w (funct3Of r.value) (opcodeOf r.value)).1
  fin_cases hr
  all_goals
    obtain ⟨hop, h3⟩ := hfields hs
    simp only [DecodesAs, decode, length_bits, hop, decodeOpImm, decodeJalr, decodeBranch, decodeLoad, decodeStore,
      decodeMiscMem, decodeSystem, h3]
    exact ⟨_, rfl, rfl⟩

theorem decodesAs_of_spells_funct7 (hr : r ∈ opcodeRows.filter (·.mask = 0xFE00707F)) (hs : r.Spells w) :
    DecodesAs w r.mnemonic := by
  have hfields := (spells_funct7 w (funct7Of r.value) (funct3Of r.value) (opcodeOf r.value)).1
  fin_cases hr
  all_goals
    obtain ⟨hop, h3, h7⟩ := hfields hs
    simp only [DecodesAs, decode, length_bits, hop, decodeOpImm, decodeOp, h3, h7]
    exact ⟨_, rfl, rfl⟩

theorem decodesAs_of_spells_funct5 (hr : r ∈ opcodeRows.filter (·.mask = 0xF800707F)) (hs : r.Spells w) :
    DecodesAs w r.mnemonic := by
  have hfields := (spells_funct5 w (funct5Of r.value)).1
  fin_cases hr
  all_goals
    obtain ⟨hop, h3, h5⟩ := hfields hs
    simp only [DecodesAs, decode_eq_decodeAmo hop, decodeAmo, h3, h5]
    exact ⟨_, rfl, rfl⟩

theorem decodesAs_of_spells_loadReserved (hr : r ∈ opcodeRows.filter (·.mask = 0xF9F0707F)) (hs : r.Spells w) :
    DecodesAs w r.mnemonic := by
  fin_cases hr
  obtain ⟨hop, h3, h5, h2⟩ := (spells_loadReserved w).1 hs
  simp only [DecodesAs, decode_eq_decodeAmo hop, decodeAmo, h3, h5, h2]
  exact ⟨_, rfl, rfl⟩

theorem decodesAs_of_spells_word (hr : r ∈ opcodeRows.filter (·.mask = 0xFFFFFFFF)) (hs : r.Spells w) :
    DecodesAs w r.mnemonic := by
  have hw := (spells_word w r.value).1
  fin_cases hr
  all_goals
    obtain rfl := hw hs
    exact ⟨_, rfl, rfl⟩

/-- The six masks of R311. -/
theorem mask_cases (hr : r ∈ opcodeRows) :
    r.mask = 0x0000007F ∨ r.mask = 0x0000707F ∨ r.mask = 0xFE00707F ∨ r.mask = 0xF800707F ∨ r.mask = 0xF9F0707F ∨
      r.mask = 0xFFFFFFFF := by
  revert r
  decide

theorem decodesAs_of_spells (hr : r ∈ opcodeRows) (hs : r.Spells w) : DecodesAs w r.mnemonic := by
  have hrows {m : Word} (hm : r.mask = m) : r ∈ opcodeRows.filter (·.mask = m) :=
    List.mem_filter.2 ⟨hr, decide_eq_true hm⟩
  obtain hm | hm | hm | hm | hm | hm := mask_cases hr
  · exact decodesAs_of_spells_opcode (hrows hm) hs
  · exact decodesAs_of_spells_funct3 (hrows hm) hs
  · exact decodesAs_of_spells_funct7 (hrows hm) hs
  · exact decodesAs_of_spells_funct5 (hrows hm) hs
  · exact decodesAs_of_spells_loadReserved (hrows hm) hs
  · exact decodesAs_of_spells_word (hrows hm) hs

/-! ### The table (R311) -/

/-- The 68 mnemonics are distinct. -/
theorem mnemonics_nodup : (opcodeRows.map Row.mnemonic).Nodup := by
  simp [opcodeRows, rowsAlu, rowsControl, rowsMemory, rowsMulDiv, rowsAtomic, rowsSystem]

theorem row_eq_of_decodesAs {r' : Row} (hr : r ∈ opcodeRows) (hr' : r' ∈ opcodeRows) (h : DecodesAs w r.mnemonic)
    (h' : DecodesAs w r'.mnemonic) : r = r' := by
  obtain ⟨i, hi, hm⟩ := h
  obtain ⟨j, hj, hm'⟩ := h'
  obtain rfl : i = j := Except.ok.inj (hi.symm.trans hj)
  exact List.inj_on_of_nodup_map mnemonics_nodup hr hr' (hm.symm.trans hm')

theorem spells_iff_decodesAs (hr : r ∈ opcodeRows) : r.Spells w ↔ DecodesAs w r.mnemonic := by
  refine ⟨decodesAs_of_spells hr, fun h => ?_⟩
  have ⟨_, hd, _⟩ := h
  obtain ⟨r', hr', hs'⟩ := fits_of_decode hd
  rwa [row_eq_of_decodesAs hr hr' h (decodesAs_of_spells hr' hs')]

end Decodes

/-- Settles O3: each branch of the decoder that answers has the fixed fields of a row, each row's fixed fields lead to the
branch of its instruction, and the mnemonics tell the rows apart. -/
theorem decodeFollowsOpcodeTable : Obligations.DecodeFollowsOpcodeTable := by
  refine ⟨rfl, fun w r hr => spells_iff_decodesAs hr, fun w r r' hr hr' hs hs' => ?_, fun w h => ?_⟩
  · exact row_eq_of_decodesAs hr hr' (decodesAs_of_spells hr hs) (decodesAs_of_spells hr' hs')
  · exact illegal_of_not_fitsRow fun ⟨r, hr, hs⟩ => h r hr hs

/-! ### Near words (R321) -/

/-- Settles O4: a word that fits no row is illegal by the table; every other near word has an implemented major opcode, whose
decoder has no branch for the fields it holds: each branch that answers contradicts the clause. -/
theorem strictDecodingRefusesNearWords : Obligations.StrictDecodingRefusesNearWords := by
  intro w
  refine ⟨fun h => illegal_of_not_fitsRow fun ⟨r, hr, hs⟩ => h r hr hs, ?opFunct7, ?opFunct3, ?slli, ?shiftRight, ?load, ?store,
    ?branch, ?jalr, ?amoFunct3, ?amoFunct5, ?loadReserved, ?miscMem, ?systemWord, ?system⟩ <;> intro hop
  case opFunct7 =>
    intro h7
    refine ⟨.minor, (decode_eq_decodeOp hop).trans ?_⟩
    unfold decodeOp
    split <;> simp_all
  case opFunct3 =>
    intro h7 h3
    refine ⟨.minor, (decode_eq_decodeOp hop).trans ?_⟩
    unfold decodeOp
    split <;> simp_all
  case slli =>
    intro h3 h7
    exact ⟨.minor, by simp [decode_eq_decodeOpImm hop, decodeOpImm, h3, h7]⟩
  case shiftRight =>
    intro h3 h7
    simp only [List.mem_cons, List.not_mem_nil, or_false, not_or] at h7
    exact ⟨.minor, by simp [decode_eq_decodeOpImm hop, decodeOpImm, h3, h7]⟩
  case load =>
    intro h3
    refine ⟨.minor, (decode_eq_decodeLoad hop).trans ?_⟩
    unfold decodeLoad
    split <;> simp_all
  case store =>
    intro h3
    refine ⟨.minor, (decode_eq_decodeStore hop).trans ?_⟩
    unfold decodeStore
    split <;> simp_all
  case branch =>
    intro h3
    refine ⟨.minor, (decode_eq_decodeBranch hop).trans ?_⟩
    unfold decodeBranch
    split <;> simp_all
  case jalr =>
    intro h3
    exact ⟨.minor, (decode_eq_decodeJalr hop).trans (if_neg h3)⟩
  case amoFunct3 =>
    intro h3
    exact ⟨.minor, (decode_eq_decodeAmo hop).trans (if_neg h3)⟩
  case amoFunct5 =>
    intro h5
    refine ⟨.minor, (decode_eq_decodeAmo hop).trans ?_⟩
    unfold decodeAmo
    split
    · split <;> simp_all
    · rfl
  case loadReserved =>
    intro h5 h2
    exact ⟨.minor, by simp [decode_eq_decodeAmo hop, decodeAmo, h5, h2]⟩
  case miscMem =>
    intro h3
    refine ⟨.minor, (decode_eq_decodeMiscMem hop).trans ?_⟩
    unfold decodeMiscMem
    split <;> simp_all
  case systemWord =>
    intro h3 hw
    simp only [List.mem_cons, List.not_mem_nil, or_false, not_or] at hw
    exact ⟨.minor, by simp [decode_eq_decodeSystem hop, decodeSystem, h3, hw]⟩
  case system =>
    intro h3
    exact ⟨.minor, by simp [decode_eq_decodeSystem hop, decodeSystem, h3]⟩

end Sys2Proof
end

section
/-! SUPPORT. Encodings in the words of the statements: when a row of R311 spells one instruction, by the fields that it fixes. -/

namespace Sys2Proof

open Sys2Proof.Claims

variable {mk : Word → Instr} {op : BitVec 7} {d : Word → Except DecodeReject Instr}

/-- A row spells `mk` when the words that fit it decode to `mk`: no other word decodes to the row's mnemonic. -/
theorem spelledBy_of_row {value mask : Word} (hr : ⟨(mk 0).mnemonic, value, mask⟩ ∈ opcodeRows)
    (hm : ∀ w, (mk w).mnemonic = (mk 0).mnemonic) (hd : ∀ w, w &&& mask = value → decode w = .ok (mk w)) :
    SpelledBy value mask mk :=
  fun w => ⟨hd w, fun h => (spells_iff_decodesAs hr).2 ⟨mk w, h, hm w⟩⟩

/-- A row that fixes the opcode. -/
theorem spelledBy_opcode (hd : ∀ {w}, opcodeOf w = op → decode w = .ok (mk w))
    (hr : ⟨(mk 0).mnemonic, encodeR 0 0 0 0 0 op, 0x0000007F⟩ ∈ opcodeRows)
    (hm : ∀ w, (mk w).mnemonic = (mk 0).mnemonic) : SpelledBy (encodeR 0 0 0 0 0 op) 0x0000007F mk :=
  spelledBy_of_row hr hm fun w hw => hd ((spells_opcode w op).1 hw)

/-- A row that fixes the opcode, whose decoder is `d`, and funct3. -/
theorem spelledBy_funct3 (f3 : BitVec 3) (hop : ∀ {w}, opcodeOf w = op → decode w = d w)
    (hd : ∀ w, funct3Of w = f3 → d w = .ok (mk w))
    (hr : ⟨(mk 0).mnemonic, encodeR 0 0 0 f3 0 op, 0x0000707F⟩ ∈ opcodeRows)
    (hm : ∀ w, (mk w).mnemonic = (mk 0).mnemonic) : SpelledBy (encodeR 0 0 0 f3 0 op) 0x0000707F mk := by
  refine spelledBy_of_row hr hm fun w hw => ?_
  obtain ⟨h, h3⟩ := (spells_funct3 w f3 op).1 hw
  exact (hop h).trans (hd w h3)

/-- A row that fixes the opcode, whose decoder is `d`, funct3 and funct7. -/
theorem spelledBy_funct7 (f7 : BitVec 7) (f3 : BitVec 3) (hop : ∀ {w}, opcodeOf w = op → decode w = d w)
    (hd : ∀ w, funct3Of w = f3 → funct7Of w = f7 → d w = .ok (mk w))
    (hr : ⟨(mk 0).mnemonic, encodeR f7 0 0 f3 0 op, 0xFE00707F⟩ ∈ opcodeRows)
    (hm : ∀ w, (mk w).mnemonic = (mk 0).mnemonic) : SpelledBy (encodeR f7 0 0 f3 0 op) 0xFE00707F mk := by
  refine spelledBy_of_row hr hm fun w hw => ?_
  obtain ⟨h, h3, h7⟩ := (spells_funct7 w f7 f3 op).1 hw
  exact (hop h).trans (hd w h3 h7)

end Sys2Proof
end

section
/-! PROOF. RV32I computation: the encodings and results of LUI, AUIPC and the operations with an immediate, an immediate shift
amount or a second register (R400 to R420). -/

namespace Sys2Proof.Machine

open Sys2Proof.Claims

/-! ### Results -/

/-- Completing with `x[rd] <- u` is retiring any `v` that `u` equals. -/
theorem retires_of_exec_eq {i : Instr} {s : State} {rd : Reg} {u v : Word} (hi : exec i s = .next (s.retire rd u))
    (hv : u = v) : Retires i s rd v :=
  retires_of_exec (hv ▸ hi)

/-- The word of a signed comparison (R403, R414). -/
theorem truthWord_slt (a b : Word) : truthWord (a.slt b) = if a.toInt < b.toInt then 1 else 0 := truthWord_decide _

/-- The word of an unsigned comparison (R404, R415). -/
theorem truthWord_ult (a b : Word) : truthWord (a.ult b) = if a.toNat < b.toNat then 1 else 0 := truthWord_decide _

/-! ### The statements -/

/-- Settles O16: each row fixes the opcode alone, and each meaning retires the value itself. -/
theorem upperImmediateResults : Obligations.UpperImmediateResults := by
  refine ⟨?_, ?_, fun s rd imm => ⟨retires_of_exec rfl, retires_of_exec rfl⟩⟩
  · exact spelledBy_opcode decode_lui (by decide) fun _ => rfl
  · exact spelledBy_opcode decode_auipc (by decide) fun _ => rfl

/-- Settles O17: funct3 selects the operation in OP-IMM, and a comparison's word is 1 or 0 as the numbers compare. -/
theorem immediateOperationResults : Obligations.ImmediateOperationResults := by
  refine ⟨spelledBy_funct3 0b000 decode_eq_decodeOpImm ?_ (by decide) fun _ => rfl,
    spelledBy_funct3 0b010 decode_eq_decodeOpImm ?_ (by decide) fun _ => rfl,
    spelledBy_funct3 0b011 decode_eq_decodeOpImm ?_ (by decide) fun _ => rfl,
    spelledBy_funct3 0b100 decode_eq_decodeOpImm ?_ (by decide) fun _ => rfl,
    spelledBy_funct3 0b110 decode_eq_decodeOpImm ?_ (by decide) fun _ => rfl,
    spelledBy_funct3 0b111 decode_eq_decodeOpImm ?_ (by decide) fun _ => rfl,
    fun s rd rs1 imm => ⟨retires_of_exec rfl, retires_of_exec_eq rfl (truthWord_slt _ _),
      retires_of_exec_eq rfl (truthWord_ult _ _), retires_of_exec rfl, retires_of_exec rfl,
      retires_of_exec rfl⟩⟩
  all_goals
    intro w h3
    simp only [decodeOpImm, h3]
    rfl

/-- Settles O18: funct3 and funct7 select the shift in OP-IMM, and a shift multiplies or divides by a power of two. -/
theorem immediateShiftResults : Obligations.ImmediateShiftResults := by
  refine ⟨spelledBy_funct7 0b0000000 0b001 decode_eq_decodeOpImm ?_ (by decide) fun _ => rfl,
    spelledBy_funct7 0b0000000 0b101 decode_eq_decodeOpImm ?_ (by decide) fun _ => rfl,
    spelledBy_funct7 0b0100000 0b101 decode_eq_decodeOpImm ?_ (by decide) fun _ => rfl,
    fun s rd rs1 shamt => ⟨retires_of_exec_eq rfl (shiftLeft_eq_ofNat _ _),
      retires_of_exec_eq rfl (shiftRight_eq_ofNat _ _), retires_of_exec_eq rfl (sshiftRight_eq_ofInt _ _)⟩⟩
  all_goals
    intro w h3 h7
    simp only [decodeOpImm, h3, h7]
    rfl

/-- Settles O19: funct3 and funct7 select the operation in OP, and a comparison's word is 1 or 0 as the numbers compare. -/
theorem registerOperationResults : Obligations.RegisterOperationResults := by
  refine ⟨spelledBy_funct7 0b0000000 0b000 decode_eq_decodeOp ?_ (by decide) fun _ => rfl,
    spelledBy_funct7 0b0100000 0b000 decode_eq_decodeOp ?_ (by decide) fun _ => rfl,
    spelledBy_funct7 0b0000000 0b010 decode_eq_decodeOp ?_ (by decide) fun _ => rfl,
    spelledBy_funct7 0b0000000 0b011 decode_eq_decodeOp ?_ (by decide) fun _ => rfl,
    spelledBy_funct7 0b0000000 0b100 decode_eq_decodeOp ?_ (by decide) fun _ => rfl,
    spelledBy_funct7 0b0000000 0b110 decode_eq_decodeOp ?_ (by decide) fun _ => rfl,
    spelledBy_funct7 0b0000000 0b111 decode_eq_decodeOp ?_ (by decide) fun _ => rfl,
    fun s rd rs1 rs2 => ⟨retires_of_exec rfl, retires_of_exec rfl, retires_of_exec_eq rfl (truthWord_slt _ _),
      retires_of_exec_eq rfl (truthWord_ult _ _), retires_of_exec rfl, retires_of_exec rfl,
      retires_of_exec rfl⟩⟩
  all_goals
    intro w h3 h7
    simp only [decodeOp, h3, h7]
    rfl

/-- Settles O20: funct3 and funct7 select the shift in OP, and the amount is `x[rs2]` modulo 32. -/
theorem registerShiftResults : Obligations.RegisterShiftResults := by
  refine ⟨spelledBy_funct7 0b0000000 0b001 decode_eq_decodeOp ?_ (by decide) fun _ => rfl,
    spelledBy_funct7 0b0000000 0b101 decode_eq_decodeOp ?_ (by decide) fun _ => rfl,
    spelledBy_funct7 0b0100000 0b101 decode_eq_decodeOp ?_ (by decide) fun _ => rfl,
    fun s rd rs1 rs2 => ⟨retires_of_exec_eq rfl (by simp only [shiftAmount_eq_mod, shiftLeft_eq_ofNat]),
      retires_of_exec_eq rfl (by simp only [shiftAmount_eq_mod, shiftRight_eq_ofNat]),
      retires_of_exec_eq rfl (by simp only [shiftAmount_eq_mod, sshiftRight_eq_ofInt])⟩⟩
  all_goals
    intro w h3 h7
    simp only [decodeOp, h3, h7]
    rfl

end Sys2Proof.Machine
end

section
/-! PROOF. RV32I control transfer: the encodings, links and targets of the jumps and the branches, and the misaligned target
that raises before any write (R450 to R460). -/

namespace Sys2Proof.Machine

open Sys2Proof.Claims

section Transfers

variable {i : Instr} {s : State} {rd rs1 rs2 : Reg} {t v : Word} {off : BitVec 13}

/-! ### The check of a target (R450) -/

theorem checkTarget_aligned (ht : WordAligned t) : checkTarget t = .ok t := if_pos ht

theorem checkTarget_misaligned (ht : ¬ WordAligned t) : checkTarget t = .error (.instrAddrMisaligned t) := if_neg ht

/-! ### Jumps (R451, R452) -/

/-- Completing with `x[rd] <- v` and the next pc `t`. -/
theorem completesTo_of_exec (h : exec i s = .next ((s.setX rd v).setPc t)) : CompletesTo i s rd v t := by
  refine ⟨_, h, ⟨fun r => ?_, ?_⟩, rfl, ?_, fun a => by simp⟩
  · rw [← s.x_setX]
    exact State.x_congr rfl r
  · rintro rfl
    rfl
  · exact congrArg (·.setPc t) (s.setX_eq rd v)

/-- A jump links and goes to its target, or raises before it links. -/
theorem jumpTo_completes_or_raises (hi : exec i s = jumpTo t rd s) :
    (WordAligned t → CompletesTo i s rd (s.pc + 4) t) ∧ (¬ WordAligned t → Raises i s 0 t) := by
  unfold jumpTo at hi
  constructor
  · intro ht
    rw [checkTarget_aligned ht] at hi
    exact completesTo_of_exec hi
  · intro ht
    rw [checkTarget_misaligned ht] at hi
    exact raises_of_exec hi

/-! ### Branches (R460) -/

/-- A branch that is not taken goes on at `pc + 4`; one that is taken goes to its target, or raises. -/
theorem branchIf_moves_or_raises (cond : Word → Word → Bool) {taken : Bool}
    (hi : exec i s = branchIf cond rs1 rs2 off s) (hc : cond (s.x rs1) (s.x rs2) = taken) :
    (taken = false → OnlyMovesPc i s (s.pc + 4)) ∧
      (taken = true → WordAligned (s.branchTarget off) → OnlyMovesPc i s (s.branchTarget off)) ∧
      (taken = true → ¬ WordAligned (s.branchTarget off) → Raises i s 0 (s.branchTarget off)) := by
  unfold branchIf at hi
  rw [hc] at hi
  refine ⟨?notTaken, ?aligned, ?misaligned⟩ <;> rintro rfl
  case notTaken => exact hi
  case aligned =>
    intro ht
    rw [if_pos rfl, checkTarget_aligned ht] at hi
    exact hi
  case misaligned =>
    intro ht
    rw [if_pos rfl, checkTarget_misaligned ht] at hi
    exact raises_of_exec hi

end Transfers

/-! ### The statements -/

/-- Settles O21: JAL's row fixes the opcode alone and JALR's funct3 too, and both are one jump to their target. -/
theorem jumpsLinkAndTransfer : Obligations.JumpsLinkAndTransfer := by
  refine ⟨?_, ?_, ?_, fun s rd off => jumpTo_completes_or_raises rfl, fun s rd rs1 imm => jumpTo_completes_or_raises rfl⟩
  · exact spelledBy_opcode decode_jal (by decide) fun _ => rfl
  · exact spelledBy_funct3 0b000 decode_eq_decodeJalr (fun _ h3 => if_pos h3) (by decide) fun _ => rfl
  · exact fun w hop h3 => ⟨.minor, (decode_eq_decodeJalr hop).trans (if_neg h3)⟩

/-- Settles O22: funct3 selects the branch, and each branch is `branchIf` of its comparison of the two registers. -/
theorem branchesCompareAndTransfer : Obligations.BranchesCompareAndTransfer := by
  refine ⟨spelledBy_funct3 0b000 decode_eq_decodeBranch ?_ (by decide) fun _ => rfl,
    spelledBy_funct3 0b001 decode_eq_decodeBranch ?_ (by decide) fun _ => rfl,
    spelledBy_funct3 0b100 decode_eq_decodeBranch ?_ (by decide) fun _ => rfl,
    spelledBy_funct3 0b101 decode_eq_decodeBranch ?_ (by decide) fun _ => rfl,
    spelledBy_funct3 0b110 decode_eq_decodeBranch ?_ (by decide) fun _ => rfl,
    spelledBy_funct3 0b111 decode_eq_decodeBranch ?_ (by decide) fun _ => rfl, ?illegal, ?transfer⟩
  case illegal =>
    intro w
    obtain ⟨-, -, -, -, -, -, -, hbranch, -⟩ := strictDecodingRefusesNearWords w
    exact hbranch
  case transfer =>
    intro s rs1 rs2 off a b target
    simp only [List.forall_mem_cons, List.not_mem_nil, false_imp_iff, implies_true, and_true]
    refine ⟨branchIf_moves_or_raises (· == ·) rfl ?beq, branchIf_moves_or_raises (· != ·) rfl ?bne,
      branchIf_moves_or_raises BitVec.slt rfl ?blt, branchIf_moves_or_raises (fun a b => !a.slt b) rfl ?bge,
      branchIf_moves_or_raises BitVec.ult rfl ?bltu, branchIf_moves_or_raises (fun a b => !a.ult b) rfl ?bgeu⟩
    case beq => rfl
    case bne => exact decide_not.symm
    case blt => rfl
    case bge => exact BitVec.sle_eq_not_slt.symm
    case bltu => rfl
    case bgeu => exact (BitVec.ule_eq_not_ult b a).symm
  all_goals
    intro w h3
    simp only [decodeBranch, h3]
    rfl

end Sys2Proof.Machine
end

section
/-! PROOF. RV32I loads and stores: the encodings of LB to SW, a load that reaches plain bytes, a load that a device answers, and
the two obligations assembled from these and from the exceptions and stores above (R500 to R511). -/

namespace Sys2Proof.Machine

open Sys2Proof.Claims

/-! ### Accesses that reach plain bytes (R231, R232, R235, R236, R240) -/

section PlainBytes

variable {c : Config} {a : Word}

/-- The loads that are not intercepted are those outside R240's table. -/
theorem loadPort_eq_none_iff_notMem : loadPort c a = none ↔ a ∉ interceptedLoads c := by
  rw [loadPort_eq_none]
  constructor
  · intro h
    simpa [interceptedLoads] using ⟨h .uartData, h .uartStatus, h .cmpLo, h .cmpHi, h .timeLo, h .timeHi, h .vblank⟩
  · rintro h p rfl
    exact h (by cases p <;> simp [interceptedLoads, LoadPort.offset])

/-- The stores that are not intercepted are those outside R240's table. -/
theorem storePort_eq_none_iff_notMem : storePort c a = none ↔ a ∉ interceptedStores c := by
  rw [storePort_eq_none]
  constructor
  · intro h
    simpa [interceptedStores] using ⟨h .uartData, h .cmpLo, h .cmpHi, h .swap, h .syscon⟩
  · rintro h p rfl
    exact h (by cases p <;> simp [interceptedStores, StorePort.offset])

/-- RAM and the MMIO window are mapped, and in the window an access reaches bytes when `free` holds. -/
theorem region_of_reaches {free : Prop} (h : InRam c a ∨ (InMmio c a ∧ free)) :
    region c a ≠ .unmapped ∧ (region c a = .ram ∨ free) := by
  obtain hram | ⟨hmmio, hfree⟩ := h
  · rw [region_eq_ram.2 hram]
    exact ⟨nofun, .inl rfl⟩
  · rw [region_eq_mmio.2 hmmio]
    exact ⟨nofun, .inr hfree⟩

end PlainBytes

/-- A plain load reaches both regions. -/
theorem ReadKind.load_reaches {r : Region} : ReadKind.load.reaches r = true ↔ r ≠ .unmapped := by
  cases r <;> decide

/-- The bytes of an access, in the words of the statements. -/
theorem State.loadBytes_eq_bytesValue (s : State) (a : Word) (w : Width) :
    s.loadBytes a w = bytesValue s.mem a.toNat w := by
  cases w
  case byte => exact s.loadBytes_byte a
  case half => exact s.loadBytes_half a
  case word => exact s.loadBytes_word a

section Loads

variable {f : LoadForm} {s : State} (rd : Reg) {rs1 : Reg} {imm : BitVec 12}

/-- A load that no device answers retires with the extended bytes. -/
theorem load_retires_bytes (ha : Aligned (effective s rs1 imm) f.width)
    (hr : LoadReachesBytes s.cfg (effective s rs1 imm)) :
    Retires (f.instr rd rs1 imm) s rd (f.extend (bytesValue s.mem (effective s rs1 imm).toNat f.width)) := by
  obtain ⟨hmapped, hplain⟩ := region_of_reaches hr
  refine retires_of_exec ?_
  rw [exec_load, ← State.loadBytes_eq_bytesValue]
  unfold loadInto
  rw [State.effectiveAddr_eq, memRead_bytes ha (ReadKind.load_reaches.2 hmapped)
    (hplain.imp_right loadPort_eq_none_iff_notMem.2)]

/-- A load that a device answers writes the extended value to `rd`, over the device's side effect. -/
theorem load_completes_port {p : LoadPort} (ha : Aligned (effective s rs1 imm) f.width)
    (hr : InMmio s.cfg (effective s rs1 imm)) (hp : loadPort s.cfg (effective s rs1 imm) = some p) :
    ∃ t, exec (f.instr rd rs1 imm) s = .next t ∧ RegisterWritten s t rd (f.extend (deviceLoad p s).1) ∧
      t.pc = s.pc + 4 ∧ t = { (deviceLoad p s).2 with regs := t.regs, pc := t.pc } := by
  refine ⟨_, exec_load_port rd ha hr hp, registerWritten_retire (deviceLoad_regs p s) rd _, ?_, ?_⟩
  · rw [State.retire_pc, deviceLoad_pc]
  · rw [State.retire_pc]
    exact State.retire_eq _ _ _

end Loads

/-! ### The statements -/

/-- Settles O23: funct3 selects the load, and a load is one read, of bytes or of a device, with the exceptions of its
check. -/
theorem loadsReadMemoryOrDevice : Obligations.LoadsReadMemoryOrDevice := by
  refine ⟨spelledBy_funct3 0b000 decode_eq_decodeLoad ?_ (by decide) fun _ => rfl,
    spelledBy_funct3 0b001 decode_eq_decodeLoad ?_ (by decide) fun _ => rfl,
    spelledBy_funct3 0b010 decode_eq_decodeLoad ?_ (by decide) fun _ => rfl,
    spelledBy_funct3 0b100 decode_eq_decodeLoad ?_ (by decide) fun _ => rfl,
    spelledBy_funct3 0b101 decode_eq_decodeLoad ?_ (by decide) fun _ => rfl, ?access⟩
  case access =>
    intro f s rd rs1 imm
    obtain ⟨hraises, -⟩ := memoryChecksComeInOrder.1 s rd rs1 0 imm false false
    obtain ⟨hmisaligned, hunmapped⟩ := hraises f
    exact ⟨load_retires_bytes rd, fun p => load_completes_port rd, hmisaligned, hunmapped⟩
  all_goals
    intro w h3
    simp only [decodeLoad, h3]
    rfl

/-- Settles O27: funct3 selects the store, and a store is one write, of bytes or to a device, with the exceptions of its
check. -/
theorem storesWriteMemoryOrDevice : Obligations.StoresWriteMemoryOrDevice := by
  refine ⟨spelledBy_funct3 0b000 decode_eq_decodeStore ?_ (by decide) fun _ => rfl,
    spelledBy_funct3 0b001 decode_eq_decodeStore ?_ (by decide) fun _ => rfl,
    spelledBy_funct3 0b010 decode_eq_decodeStore ?_ (by decide) fun _ => rfl, ?access⟩
  case access =>
    intro f s rs1 rs2 imm hm
    obtain ⟨-, hraises, -⟩ := memoryChecksComeInOrder.1 s 0 rs1 rs2 imm false false
    obtain ⟨hmisaligned, hunmapped⟩ := hraises f
    refine ⟨fun ha hr => ?bytes, fun p ha hr hp => ?device, hmisaligned, hunmapped⟩
    case bytes =>
      obtain ⟨hmapped, hplain⟩ := region_of_reaches hr
      exact ⟨_, exec_store_bytes rs2 ha hmapped (hplain.imp_right storePort_eq_none_iff_notMem.2),
        s.storeBytes_bytesStored hm _ _ _, rfl⟩
    case device =>
      rw [exec_store_port rs2 ha hr hp, ← deviceStore_pc p f.width (s.x rs2) s]
      rfl
  all_goals
    intro w h3
    simp only [decodeStore, h3]
    rfl

end Sys2Proof.Machine
end

section
/-! PROOF. RV32M: the encodings and results of the multiplications, the divisions and the remainders (R550 to R559). -/

namespace Sys2Proof.Machine

open Sys2Proof.Claims

/-! ### Halves of a 64-bit product -/

/-- The low half of a 64-bit number is the number modulo 2^32. -/
theorem extractLow_ofInt (p : Int) : (BitVec.ofInt 64 p).extractLsb' 0 32 = BitVec.ofInt 32 p := by
  apply BitVec.eq_of_toNat_eq
  simp only [BitVec.extractLsb'_toNat, BitVec.toNat_ofInt, Nat.shiftRight_zero]
  omega

/-- The high half of a 64-bit number is the model's `highWord`. -/
theorem extractHigh_ofInt (p : Int) : (BitVec.ofInt 64 p).extractLsb' 32 32 = highWord p := by
  apply BitVec.eq_of_toNat_eq
  simp only [highWord, BitVec.extractLsb'_toNat, BitVec.toNat_ofInt, Nat.shiftRight_eq_div_pow]
  omega

/-- A sign-extended word holds the word's signed reading. -/
theorem signExtend_eq_ofInt (a : Word) : a.signExtend 64 = BitVec.ofInt 64 a.toInt := rfl

/-- A zero-extended word holds the word's unsigned reading. -/
theorem setWidth_eq_ofInt (a : Word) : a.setWidth 64 = BitVec.ofInt 64 a.toNat := by
  rw [BitVec.ofInt_natCast, BitVec.ofNat_toNat]

theorem mulLow_eq_extract (a b : Word) : mulLow a b = (a.signExtend 64 * b.signExtend 64).extractLsb' 0 32 := by
  rw [signExtend_eq_ofInt, signExtend_eq_ofInt, ← BitVec.ofInt_mul, extractLow_ofInt, BitVec.ofInt_mul, BitVec.ofInt_toInt,
    BitVec.ofInt_toInt, mulLow]

theorem mulHighSS_eq_extract (a b : Word) :
    mulHighSS a b = (a.signExtend 64 * b.signExtend 64).extractLsb' 32 32 := by
  rw [signExtend_eq_ofInt, signExtend_eq_ofInt, ← BitVec.ofInt_mul, extractHigh_ofInt, mulHighSS]

theorem mulHighSU_eq_extract (a b : Word) :
    mulHighSU a b = (a.signExtend 64 * b.setWidth 64).extractLsb' 32 32 := by
  rw [signExtend_eq_ofInt, setWidth_eq_ofInt, ← BitVec.ofInt_mul, extractHigh_ofInt, mulHighSU]

theorem mulHighUU_eq_extract (a b : Word) :
    mulHighUU a b = (a.setWidth 64 * b.setWidth 64).extractLsb' 32 32 := by
  rw [setWidth_eq_ofInt, setWidth_eq_ofInt, ← BitVec.ofInt_mul, extractHigh_ofInt, mulHighUU]

/-! ### Quotients and remainders -/

section Quotients

variable {a b : Word}

theorem divSigned_of_zero (hb : b = 0) : divSigned a b = 0xFFFFFFFF := if_pos hb

theorem divUnsigned_of_zero (hb : b = 0) : divUnsigned a b = 0xFFFFFFFF := if_pos hb

theorem remSigned_of_zero (hb : b = 0) : remSigned a b = a := if_pos hb

theorem remUnsigned_of_zero (hb : b = 0) : remUnsigned a b = a := if_pos hb

theorem divSigned_of_ne_zero (hb : b ≠ 0) (ho : ¬ (a = 0x80000000 ∧ b = 0xFFFFFFFF)) :
    divSigned a b = BitVec.ofInt 32 (a.toInt.tdiv b.toInt) :=
  (if_neg hb).trans (if_neg ho)

theorem divUnsigned_of_ne_zero (hb : b ≠ 0) : divUnsigned a b = BitVec.ofNat 32 (a.toNat / b.toNat) := if_neg hb

/-- What is left of the dividend after the truncated quotient is the truncated remainder (R557). -/
theorem remSigned_of_ne_zero (hb : b ≠ 0) (ho : ¬ (a = 0x80000000 ∧ b = 0xFFFFFFFF)) :
    remSigned a b = BitVec.ofInt 32 (a.toInt.tmod b.toInt) := by
  rw [remSigned, if_neg hb, if_neg ho, Int.tmod_def]

theorem remUnsigned_of_ne_zero (hb : b ≠ 0) : remUnsigned a b = BitVec.ofNat 32 (a.toNat % b.toNat) := if_neg hb

end Quotients

/-- The most negative number by minus one; unsigned, the dividend is the smaller number. -/
theorem quotients_of_overflow {a b : Word} (ha : a = 0x80000000) (hb : b = 0xFFFFFFFF) :
    divSigned a b = 0x80000000 ∧ divUnsigned a b = 0 ∧ remSigned a b = 0 ∧ remUnsigned a b = 0x80000000 := by
  subst ha hb
  decide

/-! ### The statements -/

/-- Settles O35: funct3 and funct7 select the multiplication in OP, and the product of the extended words holds the product of
the numbers that they read as, modulo 2^64. -/
theorem multiplyResults : Obligations.MultiplyResults := by
  refine ⟨spelledBy_funct7 0b0000001 0b000 decode_eq_decodeOp ?_ (by decide) fun _ => rfl,
    spelledBy_funct7 0b0000001 0b001 decode_eq_decodeOp ?_ (by decide) fun _ => rfl,
    spelledBy_funct7 0b0000001 0b010 decode_eq_decodeOp ?_ (by decide) fun _ => rfl,
    spelledBy_funct7 0b0000001 0b011 decode_eq_decodeOp ?_ (by decide) fun _ => rfl,
    fun s rd rs1 rs2 => ⟨retires_of_exec_eq rfl (mulLow_eq_extract _ _),
      retires_of_exec_eq rfl (mulHighSS_eq_extract _ _), retires_of_exec_eq rfl (mulHighSU_eq_extract _ _),
      retires_of_exec_eq rfl (mulHighUU_eq_extract _ _)⟩⟩
  all_goals
    intro w h3 h7
    simp only [decodeOp, h3, h7]
    rfl

/-- Settles O36: funct3 and funct7 select the operation in OP, and its value is that of R559 for a zero divisor and for signed
overflow, and the truncated quotient or remainder for all other operands. -/
theorem divideResults : Obligations.DivideResults := by
  refine ⟨spelledBy_funct7 0b0000001 0b100 decode_eq_decodeOp ?_ (by decide) fun _ => rfl,
    spelledBy_funct7 0b0000001 0b101 decode_eq_decodeOp ?_ (by decide) fun _ => rfl,
    spelledBy_funct7 0b0000001 0b110 decode_eq_decodeOp ?_ (by decide) fun _ => rfl,
    spelledBy_funct7 0b0000001 0b111 decode_eq_decodeOp ?_ (by decide) fun _ => rfl,
    fun s rd rs1 rs2 => ⟨fun hb => ?zero, fun ha hb => ?overflow, fun hb => ?unsigned, fun hb ho => ?signed⟩⟩
  case zero =>
    exact ⟨retires_of_exec_eq rfl (divSigned_of_zero hb), retires_of_exec_eq rfl (divUnsigned_of_zero hb),
      retires_of_exec_eq rfl (remSigned_of_zero hb), retires_of_exec_eq rfl (remUnsigned_of_zero hb)⟩
  case overflow =>
    obtain ⟨hdiv, hdivu, hrem, hremu⟩ := quotients_of_overflow ha hb
    exact ⟨retires_of_exec_eq rfl hdiv, retires_of_exec_eq rfl hdivu, retires_of_exec_eq rfl hrem,
      retires_of_exec_eq rfl hremu⟩
  case unsigned =>
    exact ⟨retires_of_exec_eq rfl (divUnsigned_of_ne_zero hb), retires_of_exec_eq rfl (remUnsigned_of_ne_zero hb)⟩
  case signed =>
    exact ⟨retires_of_exec_eq rfl (divSigned_of_ne_zero hb ho), retires_of_exec_eq rfl (remSigned_of_ne_zero hb ho)⟩
  all_goals
    intro w h3 h7
    simp only [decodeOp, h3, h7]
    rfl

end Sys2Proof.Machine
end

section
/-! PROOF. RV32A: the encodings of LR.W and the nine AMOs, the word each reads, the reservation or the word it leaves, and its
exceptions (R600, R602 to R612). -/

namespace Sys2Proof.Machine

open Sys2Proof.Claims

/-! ### Encodings (R310, R311) -/

/-- A row of the AMO opcode that fixes funct3 and funct5: `aq`, `rl` and the registers are free. -/
theorem spelledBy_funct5 {mk : Word → Instr} (f5 : BitVec 5)
    (hd : ∀ w, funct3Of w = 0b010#3 → funct5Of w = f5 → decodeAmo w = .ok (mk w))
    (hr : ⟨(mk 0).mnemonic, encodeAmo f5 false false 0 0 0, 0xF800707F⟩ ∈ opcodeRows)
    (hm : ∀ w, (mk w).mnemonic = (mk 0).mnemonic) : SpelledBy (encodeAmo f5 false false 0 0 0) 0xF800707F mk := by
  refine spelledBy_of_row hr hm fun w hw => ?_
  obtain ⟨hop, h3, h5⟩ := (spells_funct5 w f5).1 hw
  exact (decode_eq_decodeAmo hop).trans (hd w h3 h5)

/-- LR.W's row fixes rs2 too (R321). -/
theorem lrW_spelledBy :
    SpelledBy 0x1000202F 0xF9F0707F (fun w => .lrW (rdOf w) (rs1Of w) (w.getLsbD 26) (w.getLsbD 25)) := by
  refine spelledBy_of_row (by decide) (fun _ => rfl) fun w hw => ?_
  obtain ⟨hop, h3, h5, h2⟩ := (spells_loadReserved w).1 hw
  rw [decode_eq_decodeAmo hop, decodeAmo, if_pos h3, h5]
  exact if_pos h2

/-! ### Signed and unsigned extrema (R609 to R612) -/

theorem minSigned_eq (old b : Word) : minSigned old b = if old.toInt < b.toInt then old else b := by
  simp only [minSigned, BitVec.slt_iff_toInt_lt]

theorem maxSigned_eq (old b : Word) : maxSigned old b = if b.toInt < old.toInt then old else b := by
  simp only [maxSigned, BitVec.slt_iff_toInt_lt]

theorem minUnsigned_eq (old b : Word) : minUnsigned old b = if old.toNat < b.toNat then old else b := by
  simp only [minUnsigned, BitVec.ult_iff_toNat_lt]

theorem maxUnsigned_eq (old b : Word) : maxUnsigned old b = if b.toNat < old.toNat then old else b := by
  simp only [maxUnsigned, BitVec.ult_iff_toNat_lt]

section Atomics

variable {i : Instr} {op : Word → Word → Word} {s : State} {rd rs1 rs2 : Reg}

/-! ### LR.W (R600) -/

/-- LR.W of an aligned RAM word reads it and reserves its address. -/
theorem lrW_completes (rd : Reg) (aq rl : Bool) (ha : Aligned (s.x rs1) .word) (hr : InRam s.cfg (s.x rs1)) :
    ∃ t, exec (.lrW rd rs1 aq rl) s = .next t ∧ RegisterWritten s t rd (bytesValue s.mem (s.x rs1).toNat .word) ∧
      t.pc = s.pc + 4 ∧ t = { s with regs := t.regs, pc := t.pc, resvValid := true, resvAddr := s.x rs1 } := by
  refine ⟨_, exec_lrW_ram rd aq rl ha hr, ?_, State.retire_pc _ _ _, ?_⟩
  · rw [State.loadBytes_eq_bytesValue]
    exact registerWritten_retire rfl rd _
  · rw [State.retire_pc]
    exact State.retire_eq _ _ _

/-! ### AMOs (R603) -/

/-- An AMO on an aligned RAM word. -/
theorem amoWith_ram (ha : Aligned (s.x rs1) .word) (hr : InRam s.cfg (s.x rs1)) :
    amoWith op rd rs1 rs2 s = .next ((s.storeBytes (s.x rs1) .word (op (s.loadBytes (s.x rs1) .word) (s.x rs2))).retire rd
      (s.loadBytes (s.x rs1) .word)) := by
  have hram : region s.cfg (s.x rs1) = .ram := region_eq_ram.2 hr
  unfold amoWith
  rw [memRead_bytes ha (by rw [hram]; exact ReadKind.reaches_ram _) (.inl hram)]
  dsimp only
  rw [memWrite_bytes ha (by rw [hram]; exact WriteKind.reaches_ram _) (.inl hram)]

/-- The bytes stored stay when the instruction then writes a register and moves the pc. -/
theorem State.storeBytes_retire_bytesStored (hm : s.mem.wf = true) (a : Word) (w : Width) (v u : Word) :
    BytesStored s ((s.storeBytes a w v).retire rd u) a w v := by
  unfold BytesStored
  rw [State.retire_mem]
  exact s.storeBytes_bytesStored hm a w v

/-- An AMO swaps the word at its address for `v`, which it computes from the old word; or it raises before the read. -/
theorem amo_completes_or_raises {v : Word} (hm : s.mem.wf = true) (hi : exec i s = amoWith op rd rs1 rs2 s)
    (hv : op (bytesValue s.mem (s.x rs1).toNat .word) (s.x rs2) = v) :
    (Aligned (s.x rs1) .word → InRam s.cfg (s.x rs1) → ∃ t, exec i s = .next t ∧
      RegisterWritten s t rd (bytesValue s.mem (s.x rs1).toNat .word) ∧ t.pc = s.pc + 4 ∧
      BytesStored s t (s.x rs1) .word v ∧ t = { s with regs := t.regs, pc := t.pc, mem := t.mem }) ∧
    (¬ Aligned (s.x rs1) .word → Raises i s 6 (s.x rs1)) ∧
    (Aligned (s.x rs1) .word → ¬ InRam s.cfg (s.x rs1) → Raises i s 7 (s.x rs1)) := by
  refine ⟨fun ha hr => ?completes, fun ha => amo_raises hi (writeCheck_misaligned .amo ha), fun ha hr => ?outside⟩
  case completes =>
    rw [← State.loadBytes_eq_bytesValue] at hv ⊢
    subst hv
    refine ⟨_, hi.trans (amoWith_ram ha hr), registerWritten_retire rfl rd _, State.retire_pc _ _ _,
      State.storeBytes_retire_bytesStored hm _ _ _ _, ?_⟩
    rw [State.retire_pc, State.retire_mem]
    exact State.retire_eq _ _ _
  case outside =>
    have hram : region s.cfg (s.x rs1) ≠ .ram := mt region_eq_ram.1 hr
    exact amo_raises hi (writeCheck_unreached ha (WriteKind.amo_reaches_eq_false.2 hram))

end Atomics

/-! ### The statements -/

/-- Settles O38: LR.W's row fixes rs2 with the operation, and LR.W is one read of RAM that reserves its address, with the
exceptions of its check. -/
theorem loadReservedReadsAndReserves : Obligations.LoadReservedReadsAndReserves := by
  refine ⟨lrW_spelledBy, fun w => ?illegal, fun s rd rs1 aq rl => ?access⟩
  case illegal =>
    obtain ⟨-, -, -, -, -, -, -, -, -, -, -, hloadReserved, -⟩ := strictDecodingRefusesNearWords w
    exact hloadReserved
  case access =>
    obtain ⟨-, -, hmisaligned, houtside⟩ := memoryChecksComeInOrder.1 s rd rs1 0 0 aq rl
    exact ⟨lrW_completes rd aq rl, fun ha => (hmisaligned ha).1, fun ha hr => (houtside ha hr).1⟩

/-- Settles O40: funct5 selects the AMO, and each AMO is `amoWith` of its operation. -/
theorem amoReadsModifiesWrites : Obligations.AmoReadsModifiesWrites := by
  refine ⟨spelledBy_funct5 0b00001 ?_ (by decide) fun _ => rfl, spelledBy_funct5 0b00000 ?_ (by decide) fun _ => rfl,
    spelledBy_funct5 0b00100 ?_ (by decide) fun _ => rfl, spelledBy_funct5 0b01100 ?_ (by decide) fun _ => rfl,
    spelledBy_funct5 0b01000 ?_ (by decide) fun _ => rfl, spelledBy_funct5 0b10000 ?_ (by decide) fun _ => rfl,
    spelledBy_funct5 0b10100 ?_ (by decide) fun _ => rfl, spelledBy_funct5 0b11000 ?_ (by decide) fun _ => rfl,
    spelledBy_funct5 0b11100 ?_ (by decide) fun _ => rfl, ?access⟩
  case access =>
    intro s rd rs1 rs2 aq rl hm a b old
    simp only [List.forall_mem_cons, List.not_mem_nil, false_imp_iff, implies_true, and_true]
    exact ⟨amo_completes_or_raises (op := fun _ b => b) hm rfl rfl, amo_completes_or_raises (op := (· + ·)) hm rfl rfl,
      amo_completes_or_raises (op := (· ^^^ ·)) hm rfl rfl, amo_completes_or_raises (op := (· &&& ·)) hm rfl rfl,
      amo_completes_or_raises (op := (· ||| ·)) hm rfl rfl, amo_completes_or_raises hm rfl (minSigned_eq old b),
      amo_completes_or_raises hm rfl (maxSigned_eq old b), amo_completes_or_raises hm rfl (minUnsigned_eq old b),
      amo_completes_or_raises hm rfl (maxUnsigned_eq old b)⟩
  all_goals
    intro w h3 h5
    simp only [decodeAmo, h3, h5]
    rfl

end Sys2Proof.Machine
end

section
/-! PROOF. The system instructions: the encodings and effects of the fences, the environment call, the breakpoint, the trap
return, the wait and the six CSR instructions (R650 to R676). -/

namespace Sys2Proof.Machine

open Sys2Proof.Claims

section System

variable {i : Instr} {s : State} {n : CsrNum} {rd : Reg} {reads writes : Bool} {new : Word → Word}

/-! ### Encodings (R310, R311) -/

/-- A row that fixes every bit. -/
theorem spelledBy_word {v : Word} (hd : decode v = .ok i) (hr : ⟨i.mnemonic, v, 0xFFFFFFFF⟩ ∈ opcodeRows) :
    SpelledBy v 0xFFFFFFFF (fun _ => i) := by
  refine spelledBy_of_row hr (fun _ => rfl) fun w hw => ?_
  rw [(spells_word w v).1 hw]
  exact hd

/-! ### ECALL and WFI -/

/-- ECALL in each mode (R660). -/
theorem execEcall_user (h : s.priv = .user) : exec .ecall s = .next (s.takeException .envCallFromU) := by
  show execEcall s = _
  unfold execEcall raise
  rw [h]

theorem execEcall_machine (h : s.priv = .machine) : exec .ecall s = .next (s.takeException .envCallFromM) := by
  show execEcall s = _
  unfold execEcall raise
  rw [h]

theorem State.wakes_iff : s.wakes = true ↔ s.mtip = true ∧ s.mtie = true := Bool.and_eq_true_iff

/-- WFI with the interrupt pending and enabled, and without (R663). -/
theorem execWfi_wakes (h : s.wakes = true) : exec .wfi s = .next s.advance := if_pos h

theorem execWfi_waits (h : ¬ s.wakes = true) : exec .wfi s = .next ({ s.advance with wfi := true }.endBatch .idle) :=
  if_neg h

/-! ### CSR instructions (R140, R670) -/

/-! Each of the six is an access with the instruction's own word: CSRRW and CSRRWI read only if `rd` is not x0, the others
write only if the rs1 field is not 0 (R671 to R676). -/

theorem exec_csrrw (rd rs1 : Reg) : exec (.csrrw rd rs1 n) s =
    csrAccess (encode (.csrrw rd rs1 n)) n rd (rd != 0) true (fun _ => s.x rs1) s := rfl

theorem exec_csrrs (rd rs1 : Reg) : exec (.csrrs rd rs1 n) s =
    csrAccess (encode (.csrrs rd rs1 n)) n rd true (rs1 != 0) (fun old => old ||| s.x rs1) s := rfl

theorem exec_csrrc (rd rs1 : Reg) : exec (.csrrc rd rs1 n) s =
    csrAccess (encode (.csrrc rd rs1 n)) n rd true (rs1 != 0) (fun old => old &&& ~~~ s.x rs1) s := rfl

theorem exec_csrrwi (rd : Reg) (uimm : BitVec 5) : exec (.csrrwi rd uimm n) s =
    csrAccess (encode (.csrrwi rd uimm n)) n rd (rd != 0) true (fun _ => uimm.setWidth 32) s := rfl

theorem exec_csrrsi (rd : Reg) (uimm : BitVec 5) : exec (.csrrsi rd uimm n) s =
    csrAccess (encode (.csrrsi rd uimm n)) n rd true (uimm != 0) (fun old => old ||| uimm.setWidth 32) s := rfl

theorem exec_csrrci (rd : Reg) (uimm : BitVec 5) : exec (.csrrci rd uimm n) s =
    csrAccess (encode (.csrrci rd uimm n)) n rd true (uimm != 0) (fun old => old &&& ~~~ uimm.setWidth 32) s := rfl

/-- An allowed CSR instruction reads, writes and retires with the old value. -/
theorem csrDone_of_exec (hi : exec i s = csrAccess (encode i) n rd reads writes new s)
    (ha : CsrAllowed s.priv n writes) : CsrDone i s n rd reads writes new := by
  unfold csrAccess at hi
  rw [if_pos (csrLegal_iff.2 ha)] at hi
  generalize hread : (if reads then csrRead n s else (0, s)) = r at hi
  obtain ⟨old, s1⟩ := r
  have hs1 : s1 = afterCsrRead n reads s := by
    cases reads <;> exact (congrArg Prod.snd hread).symm
  have hwritten : (if writes then csrWrite n (new old) s1 else s1) = afterCsrWrite n reads writes (new old) s := by
    rw [hs1]
    rfl
  refine ⟨_, hi, old, s1, hread.symm, ?_⟩
  dsimp only
  rw [hwritten]
  refine ⟨registerWritten_retire (afterCsrWrite_regs ..) rd old, ?pc, ?frame⟩
  case pc => rw [State.retire_pc, afterCsrWrite_pc]
  case frame =>
    rw [State.retire_pc]
    exact State.retire_eq _ _ _

/-- A CSR instruction that R140 forbids is illegal before any read or write. -/
theorem csr_raises_of_exec (hi : exec i s = csrAccess (encode i) n rd reads writes new s)
    (ha : ¬ CsrAllowed s.priv n writes) : Raises i s 2 (encode i) :=
  raises_of_exec (e := .illegalInstruction _) (hi.trans (if_neg (mt csrLegal_iff.1 ha)))

/-- An instruction whose meaning is `csrAccess` of its own word has the form of the statements. -/
theorem csrForm_of_exec {r w : Bool} (hi : exec i s = csrAccess (encode i) n rd r w new s) (hr : r = reads)
    (hw : w = writes) : CsrForm i s n rd reads writes new := by
  subst hr hw
  exact ⟨csrDone_of_exec hi, csr_raises_of_exec hi⟩

end System

/-! ### The statements -/

/-- Settles O43: funct3 selects the fence in MISC-MEM and fixes nothing else, and each meaning is the pc's advance alone. -/
theorem fencesOnlyAdvancePc : Obligations.FencesOnlyAdvancePc := by
  refine ⟨spelledBy_funct3 0b000 decode_eq_decodeMiscMem ?_ (by decide) fun _ => rfl,
    spelledBy_funct3 0b001 decode_eq_decodeMiscMem ?_ (by decide) fun _ => rfl,
    fun s rd rs1 succ pred fm imm => ⟨rfl, rfl⟩⟩
  all_goals
    intro w h3
    simp only [decodeMiscMem, h3]
    rfl

/-- Settles O44: each is one exact word, and each takes its exception, ECALL by the mode. -/
theorem environmentCallAndBreakpointTrap : Obligations.EnvironmentCallAndBreakpointTrap := by
  refine ⟨spelledBy_word rfl (by decide), spelledBy_word rfl (by decide),
    fun s => ⟨fun h => ?user, fun h => ?machine, ?ebreak⟩⟩
  case user => exact raises_of_exec (execEcall_user h)
  case machine => exact raises_of_exec (execEcall_machine h)
  case ebreak => exact raises_of_exec (e := .breakpoint s.pc) rfl

/-- Settles O46: one exact word, the return from a trap in M mode and an illegal instruction in U mode. -/
theorem mretRestores : Obligations.MretRestores := by
  refine ⟨spelledBy_word rfl (by decide), fun s h => ?machine, fun s h => ?user⟩
  case machine => exact execMret_machine h
  case user => exact raises_of_exec (execMret_user h)

/-- Settles O47: one exact word, and the wait is decided by the wake condition alone. -/
theorem wfiWaitsUnlessPending : Obligations.WfiWaitsUnlessPending := by
  refine ⟨spelledBy_word rfl (by decide), fun s => ⟨fun h => ?noop, fun h => ?wait⟩⟩
  case noop => exact execWfi_wakes (State.wakes_iff.2 h)
  case wait => exact execWfi_waits (mt State.wakes_iff.1 h)

/-- Settles O48: funct3 selects the CSR instruction in SYSTEM, and each of the six is `csrAccess` of its own word. -/
theorem csrInstructionsReadAndWrite : Obligations.CsrInstructionsReadAndWrite := by
  refine ⟨spelledBy_funct3 0b001 decode_eq_decodeSystem ?_ (by decide) fun _ => rfl,
    spelledBy_funct3 0b010 decode_eq_decodeSystem ?_ (by decide) fun _ => rfl,
    spelledBy_funct3 0b011 decode_eq_decodeSystem ?_ (by decide) fun _ => rfl,
    spelledBy_funct3 0b101 decode_eq_decodeSystem ?_ (by decide) fun _ => rfl,
    spelledBy_funct3 0b110 decode_eq_decodeSystem ?_ (by decide) fun _ => rfl,
    spelledBy_funct3 0b111 decode_eq_decodeSystem ?_ (by decide) fun _ => rfl, ?illegal, ?register, ?immediate⟩
  case illegal =>
    intro w
    obtain ⟨-, -, -, -, -, -, -, -, -, -, -, -, -, -, hsystem⟩ := strictDecodingRefusesNearWords w
    exact hsystem
  case register =>
    exact fun s rd rs1 n => ⟨csrForm_of_exec (exec_csrrw rd rs1) decide_not.symm rfl,
      csrForm_of_exec (exec_csrrs rd rs1) rfl decide_not.symm, csrForm_of_exec (exec_csrrc rd rs1) rfl decide_not.symm⟩
  case immediate =>
    exact fun s rd uimm n => ⟨csrForm_of_exec (exec_csrrwi rd uimm) decide_not.symm rfl,
      csrForm_of_exec (exec_csrrsi rd uimm) rfl decide_not.symm, csrForm_of_exec (exec_csrrci rd uimm) rfl decide_not.symm⟩
  all_goals
    intro w h3
    simp only [decodeSystem, h3]
    rfl

end Sys2Proof.Machine
end

section
/-! PROOF. Exceptions and the instruction cycle: trap entry for every exception and for the timer interrupt (R710, R711, R720,
R765), the order of fetch and decode (R701), and the instructions that `cycle64` counts (R761). -/

namespace Sys2Proof.Machine

open Sys2Proof.Claims

section Cycle

variable {s t : State} {i : Instr} {n : Nat}

/-! ### Trap entry (R720, R765) -/

theorem trapTaken_iff {cause tval : Word} : TrapTaken s t cause tval ↔
    (s.cfg.strictTraps = true → t = { s with phase := .ready (some (.fatal cause tval)) }) ∧
      (s.cfg.strictTraps = false → TrapEntered s t cause tval) := by
  unfold TrapTaken
  cases s.cfg.strictTraps <;> simp

/-- The timer interrupt is taken with its own cause and no trap value, in strict mode too (R742, R765). -/
theorem State.deliverInterrupt_trapEntered (budget : Nat) (h : s.interruptDue = true) :
    TrapEntered s (s.deliverInterrupt budget) timerCause 0 := by
  unfold State.deliverInterrupt
  rw [if_pos h]
  exact ⟨rfl, rfl, rfl, rfl, rfl, rfl, rfl, rfl, rfl, rfl⟩

theorem State.interruptDue_iff :
    s.interruptDue = true ↔ s.mtip = true ∧ s.mtie = true ∧ s.mstatus.mie = true := by
  simp [State.interruptDue, and_assoc]

/-! ### A step that begins an instruction (R701) -/

/-- A fetch that fails raises in the state that has counted the instruction. -/
theorem step_fetch_fault {e : Exception} (hp : s.phase = .running (n + 1)) (hf : s.fetch = .error e) :
    ∃ t, step s = .next t ∧ TrapTaken (s.beginInstr n) t e.cause e.tval :=
  ⟨_, (step_running hp).trans (runInstr_fault (by simpa using hf)), State.takeException_trapTaken _ _⟩

/-- So does a word that does not decode. -/
theorem step_illegal {w : Word} (hp : s.phase = .running (n + 1)) (hf : s.fetch = .ok w) (hw : Illegal w) :
    ∃ t, step s = .next t ∧ TrapTaken (s.beginInstr n) t 2 w := by
  obtain ⟨_, hd⟩ := hw
  exact ⟨_, (step_running hp).trans (runInstr_illegal (by simpa using hf) hd), State.takeException_trapTaken _ _⟩

/-- With budget left, the fetch or decode raised or an instruction's meaning ran. -/
theorem step_running_cases (hp : s.phase = .running (n + 1)) (h : step s = .next t) :
    (∃ e, t = (s.beginInstr n).takeException e) ∨ ∃ i, Effect (s.beginInstr n) i t := by
  rw [step_running hp] at h
  obtain ⟨e, he⟩ | ⟨_, i, -, -, he⟩ := runInstr_cases (s.beginInstr n)
  · rw [he] at h
    cases h
    exact .inl ⟨e, rfl⟩
  · exact .inr ⟨i, effect_of_exec (he.symm.trans h)⟩

/-! ### What changes `cycle64` (R761) -/

/-- No instruction writes `cycle64`. -/
theorem Effect.cycle64_eq (h : Effect s i t) : t.cycle64 = s.cycle64 := by
  cases h with
  | wait => rfl
  | trap | retire | jump | move | loadDevice | store | storeDevice | reserve | scStore | scFail | amo | mret | csr => simp

theorem hostFirstCall_cycle64 (s : State) : (hostFirstCall s).cycle64 = s.cycle64 := by
  obtain ⟨-, h⟩ | ⟨_, _, _, -, h⟩ := hostFirstCall_cases s <;> simp [h]

theorem hostCall_cycle64 (s : State) : (hostCall s).cycle64 = s.cycle64 := by
  obtain h | ⟨_, _, _, -, h⟩ := hostCall_cases s <;> simp [h]

theorem step_running_cycle64 (hp : s.phase = .running (n + 1)) (h : step s = .next t) :
    t.cycle64 = s.cycle64 + 1 := by
  obtain ⟨e, rfl⟩ | ⟨i, he⟩ := step_running_cases hp h
  · simp
  · simpa using he.cycle64_eq

/-- A step that begins no instruction and performs no reset. -/
theorem step_keepsCycle64 (hr : ∀ left, s.phase ≠ .running (left + 1)) (hs : s.phase ≠ .ready (some .restart))
    (h : step s = .next t) : t.cycle64 = s.cycle64 := by
  obtain ⟨n, hp, -⟩ | ⟨-, rfl⟩ | ⟨-, rfl⟩ | ⟨-, rfl⟩ | ⟨hp, -⟩ := step_cases h
  · exact absurd hp (hr n)
  · rfl
  · exact hostFirstCall_cycle64 s
  · exact hostCall_cycle64 s
  · exact absurd hp hs

/-! ### Who reads `cycle64` (R130, R255) -/

/-- A step that begins a `csrr` reads the CSR of the state that has counted it. -/
theorem step_csrr {c : CsrNum} {rd : Reg} {v : Word} (hb : Begins s (.csrrs rd 0 c)) (hrd : rd ≠ 0)
    (hv : ∀ n, CsrReads c (s.beginInstr n) v) (h : step s = .next t) : t.x rd = v := by
  obtain ⟨n, w, hp, hf, hd⟩ := hb
  obtain ⟨u, hu, ⟨hx, -⟩, -⟩ := hv n rd
  rw [step_begins hp hf hd, hu] at h
  cases h
  rw [hx, if_neg hrd, if_pos rfl]

/-- How taking an exception ends the batch (R722, R765). -/
theorem State.takeException_phase (s : State) (e : Exception) : (s.takeException e).phase =
    .ready (some (if s.cfg.strictTraps then .fatal e.cause e.tval else .continues)) := by
  unfold State.takeException
  split <;> rfl

/-- A device's action on a store ends the batch with `restart`, with `poweroff` and the count, or not at all (R253). -/
theorem deviceStore_phase_cases (p : StorePort) (w : Width) (v : Word) (s : State) :
    (deviceStore p w v s).phase = .ready (some .restart) ∨
      (deviceStore p w v s).phase = .ready (some (.poweroff s.cycle64)) ∨ (deviceStore p w v s).phase = s.phase := by
  cases p with
  | uartData | cmpLo | cmpHi | swap => exact .inr (.inr rfl)
  | syscon =>
    simp only [deviceStore, sysconStore]
    split
    · exact .inl rfl
    · split
      · exact .inr (.inl rfl)
      · exact .inr (.inr rfl)

theorem State.takeException_ne_poweroff (s : State) (e : Exception) (count : DWord) :
    (s.takeException e).phase ≠ .ready (some (.poweroff count)) := by
  rw [State.takeException_phase]
  cases s.cfg.strictTraps <;> simp

/-- An instruction that powers off gives the `cycle64` it runs with. -/
theorem Effect.poweroff_count {count : DWord} (h : Effect s i t) (hs : s.phase = .running n)
    (ht : t.phase = .ready (some (.poweroff count))) : count = s.cycle64 := by
  have hne : t.phase ≠ s.phase := by simp [hs, ht]
  cases h with
  | trap _ e => exact absurd ht (s.takeException_ne_poweroff e count)
  | storeDevice =>
    obtain hd | hd | hd := deviceStore_phase_cases _ _ _ s
    · exact nomatch hd.symm.trans ht
    · cases hd.symm.trans ht
      rfl
    · exact absurd hd hne
  | wait => cases ht
  | retire | jump | move | loadDevice | store | reserve | scStore | scFail | amo | mret | csr => simp at hne

theorem step_poweroff_count {count : DWord} (hp : s.phase = .running (n + 1)) (h : step s = .next t)
    (ht : t.phase = .ready (some (.poweroff count))) : count = s.cycle64 + 1 := by
  obtain ⟨e, rfl⟩ | ⟨i, he⟩ := step_running_cases hp h
  · exact absurd ht (State.takeException_ne_poweroff _ e count)
  · exact he.poweroff_count rfl ht

end Cycle

/-! ### The statements -/

/-- Settles O45: each exception has the cause and the trap value listed, and the exceptions and the interrupt share one trap
entry. -/
theorem trapEntrySavesAndTransfers : Obligations.TrapEntrySavesAndTransfers := by
  refine ⟨fun s v p hp => ?exceptions, fun s budget hip hie hmie => ?interrupt⟩
  case exceptions =>
    have hcodes : p.2 = (p.1.cause, p.1.tval) := by
      simp only [List.mem_cons, List.not_mem_nil, or_false] at hp
      obtain rfl | rfl | rfl | rfl | rfl | rfl | rfl | rfl | rfl | rfl := hp <;> rfl
    rw [hcodes]
    exact ⟨_, rfl, trapTaken_iff.1 (s.takeException_trapTaken p.1)⟩
  case interrupt => exact State.deliverInterrupt_trapEntered budget (State.interruptDue_iff.2 ⟨hip, hie, hmie⟩)

/-- Settles O7: RAM begins and ends at multiples of 4, so the four bytes at an aligned pc are all in RAM or all outside, and the
fetch, the decoder and the meaning come in this order. -/
theorem fetchAndDecodeRaiseFirst : Obligations.FetchAndDecodeRaiseFirst := by
  refine fun s left hc hp ha => ⟨?outside, ?inside⟩
  case outside =>
    rintro ⟨k, hk, hout⟩
    have hram : ¬ InRam s.cfg s.pc := mt (inRam_add_iff hc ha hk).2 hout
    exact step_fetch_fault hp (State.fetch_fault ha (mt region_eq_ram.1 hram))
  case inside =>
    intro hin
    have hram : InRam s.cfg s.pc := (inRam_add_iff hc ha (k := 0) (by decide)).1 (hin 0 (by decide))
    have hf : s.fetch = .ok (bytesValue s.mem s.pc.toNat .word) := by
      rw [← State.loadBytes_eq_bytesValue]
      exact State.fetch_ram ha (region_eq_ram.2 hram)
    exact ⟨step_illegal hp hf, fun i hd => step_begins hp hf hd⟩

/-- Settles O8: beginning an instruction counts it, no effect of an instruction and no turn of the host but a reset writes
`cycle64`, and the meaning that reads it runs in the state that has counted it. -/
theorem cycleCounterCountsInstructionsBegun : Obligations.CycleCounterCountsInstructionsBegun := by
  obtain ⟨hcounters, -⟩ := counterIdentityAndOtherCsrs
  refine ⟨fun s t left => step_running_cycle64, fun s t => step_keepsCycle64, ?low, ?high,
    fun s t left count => step_poweroff_count⟩
  case low => exact fun s t rd hb hrd => step_csrr hb hrd fun n => (hcounters (s.beginInstr n)).1
  case high => exact fun s t rd hb hrd => step_csrr hb hrd fun n => (hcounters (s.beginInstr n)).2

end Sys2Proof.Machine
end

section
/-! PROOF. The decoder and the encoder are inverse to each other: a well-formed instruction decodes from its own word, and a word
that decodes is the word of the well-formed instruction read (R301 to R303, R310, R311, R320). -/

namespace Sys2Proof

/-! ### Decoding after encoding -/

/-- The opcode of the word leads to the decoder of its major opcode, and there the fixed fields select the instruction, whose
operands are the word's fields; only an offset has to be even to be read back. -/
theorem decode_encode {i : Instr} (hi : i.wellFormed = true) : decode (encode i) = .ok i := by
  cases i with
  | lui rd imm => exact (decode_lui (by simp [encode])).trans (by simp [encode])
  | auipc rd imm => exact (decode_auipc (by simp [encode])).trans (by simp [encode])
  | jal rd off =>
    have heven : off.getLsbD 0 = false := by simpa [Instr.wellFormed] using hi
    exact (decode_jal (by simp [encode])).trans (by simp [encode, immJOf_encodeJ _ _ _ heven])
  | jalr rd rs1 imm => exact (decode_eq_decodeJalr (by simp [encode])).trans (by simp [encode, decodeJalr])
  | addi | slti | sltiu | xori | ori | andi | slli | srli | srai =>
    exact (decode_eq_decodeOpImm (by simp [encode])).trans (by simp [encode, decodeOpImm])
  | add | sub | sll | slt | sltu | xor | srl | sra | or | and | mul | mulh | mulhsu | mulhu | div | divu | rem | remu =>
    exact (decode_eq_decodeOp (by simp [encode])).trans (by simp [encode, decodeOp])
  | beq rs1 rs2 off | bne rs1 rs2 off | blt rs1 rs2 off | bge rs1 rs2 off | bltu rs1 rs2 off | bgeu rs1 rs2 off =>
    have heven : off.getLsbD 0 = false := by simpa [Instr.wellFormed] using hi
    exact (decode_eq_decodeBranch (by simp [encode])).trans (by simp [encode, decodeBranch, immBOf_encodeB _ _ _ _ _ heven])
  | lb | lh | lw | lbu | lhu => exact (decode_eq_decodeLoad (by simp [encode])).trans (by simp [encode, decodeLoad])
  | sb | sh | sw => exact (decode_eq_decodeStore (by simp [encode])).trans (by simp [encode, decodeStore])
  | lrW | scW | amoswapW | amoaddW | amoxorW | amoandW | amoorW | amominW | amomaxW | amominuW | amomaxuW =>
    exact (decode_eq_decodeAmo (by simp [encode])).trans (by simp [encode, decodeAmo])
  | fence | fenceI => exact (decode_eq_decodeMiscMem (by simp [encode])).trans (by simp [encode, decodeMiscMem])
  | csrrw | csrrs | csrrc | csrrwi | csrrsi | csrrci =>
    exact (decode_eq_decodeSystem (by simp [encode])).trans (by simp [encode, decodeSystem])
  | ecall | ebreak | mret | wfi => rfl

/-! ### Encoding after decoding -/

/-- The instruction is well formed and `w` is its word. -/
def IsWordOf (w : Word) (i : Instr) : Prop := i.wellFormed = true ∧ encode i = w

section Encodes

variable {w : Word} {i : Instr}

theorem isWordOf_of_decodeOpImm (hop : opcodeOf w = 0b0010011#7) (h : decodeOpImm w = .ok i) : IsWordOf w i := by
  unfold decodeOpImm at h
  split at h
  case h_7 h3 =>
    split at h <;> cases h
    exact ⟨rfl, (encodeR_eq_iff ..).2 ⟨hop, h3, ‹_›⟩⟩
  case h_8 h3 =>
    split at h
    · cases h
      exact ⟨rfl, (encodeR_eq_iff ..).2 ⟨hop, h3, ‹_›⟩⟩
    · split at h <;> cases h
      exact ⟨rfl, (encodeR_eq_iff ..).2 ⟨hop, h3, ‹_›⟩⟩
  case h_9 => cases h
  all_goals
    cases h
    exact ⟨rfl, (encodeI_eq_iff ..).2 ⟨hop, ‹_›⟩⟩

theorem isWordOf_of_decodeOp (hop : opcodeOf w = 0b0110011#7) (h : decodeOp w = .ok i) : IsWordOf w i := by
  unfold decodeOp at h
  split at h
  case h_19 => cases h
  all_goals
    cases h
    exact ⟨rfl, (encodeR_eq_iff ..).2 ⟨hop, ‹_›, ‹_›⟩⟩

theorem isWordOf_of_decodeJalr (hop : opcodeOf w = 0b1100111#7) (h : decodeJalr w = .ok i) : IsWordOf w i := by
  unfold decodeJalr at h
  split at h <;> cases h
  exact ⟨rfl, (encodeI_eq_iff ..).2 ⟨hop, ‹_›⟩⟩

theorem isWordOf_of_decodeBranch (hop : opcodeOf w = 0b1100011#7) (h : decodeBranch w = .ok i) : IsWordOf w i := by
  have heven : (!(immBOf w).getLsbD 0) = true := congrArg Bool.not (immBOf_even w)
  unfold decodeBranch at h
  split at h
  case h_7 => cases h
  all_goals
    cases h
    exact ⟨heven, (encodeB_eq_iff ..).2 ⟨hop, ‹_›⟩⟩

theorem isWordOf_of_decodeLoad (hop : opcodeOf w = 0b0000011#7) (h : decodeLoad w = .ok i) : IsWordOf w i := by
  unfold decodeLoad at h
  split at h
  case h_6 => cases h
  all_goals
    cases h
    exact ⟨rfl, (encodeI_eq_iff ..).2 ⟨hop, ‹_›⟩⟩

theorem isWordOf_of_decodeStore (hop : opcodeOf w = 0b0100011#7) (h : decodeStore w = .ok i) : IsWordOf w i := by
  unfold decodeStore at h
  split at h
  case h_4 => cases h
  all_goals
    cases h
    exact ⟨rfl, (encodeS_eq_iff ..).2 ⟨hop, ‹_›⟩⟩

theorem isWordOf_of_decodeAmo (hop : opcodeOf w = 0b0101111#7) (h : decodeAmo w = .ok i) : IsWordOf w i := by
  unfold decodeAmo at h
  split at h
  case isFalse => cases h
  case isTrue h3 =>
    split at h
    case h_1 h5 =>
      split at h <;> cases h
      have hword := (encodeAmo_eq_iff w _).2 ⟨hop, h3, h5⟩
      rw [‹rs2Of w = _›] at hword
      exact ⟨rfl, hword⟩
    case h_12 => cases h
    all_goals
      cases h
      exact ⟨rfl, (encodeAmo_eq_iff ..).2 ⟨hop, h3, ‹_›⟩⟩

theorem isWordOf_of_decodeMiscMem (hop : opcodeOf w = 0b0001111#7) (h : decodeMiscMem w = .ok i) : IsWordOf w i := by
  unfold decodeMiscMem at h
  split at h <;> cases h
  case h_1 h3 => exact ⟨rfl, (encodeFence_eq_iff ..).2 ⟨hop, h3⟩⟩
  case h_2 h3 => exact ⟨rfl, (encodeI_eq_iff ..).2 ⟨hop, h3⟩⟩

theorem isWordOf_of_decodeSystem (hop : opcodeOf w = 0b1110011#7) (h : decodeSystem w = .ok i) : IsWordOf w i := by
  unfold decodeSystem at h
  split at h
  case h_1 =>
    split_ifs at h with hecall hebreak hmret hwfi <;> cases h
    · exact ⟨rfl, hecall.symm⟩
    · exact ⟨rfl, hebreak.symm⟩
    · exact ⟨rfl, hmret.symm⟩
    · exact ⟨rfl, hwfi.symm⟩
  case h_8 => cases h
  all_goals
    cases h
    exact ⟨rfl, (encodeI_eq_iff ..).2 ⟨hop, ‹_›⟩⟩

theorem isWordOf_of_decode (h : decode w = .ok i) : IsWordOf w i := by
  unfold decode at h
  split at h
  case isFalse => cases h
  case isTrue =>
    split at h
    case h_1 hop =>
      cases h
      exact ⟨rfl, (encodeU_eq_iff ..).2 hop⟩
    case h_2 hop =>
      cases h
      exact ⟨rfl, (encodeU_eq_iff ..).2 hop⟩
    case h_3 hop => exact isWordOf_of_decodeOpImm hop h
    case h_4 hop => exact isWordOf_of_decodeOp hop h
    case h_5 hop =>
      cases h
      exact ⟨congrArg Bool.not (immJOf_even w), (encodeJ_eq_iff ..).2 hop⟩
    case h_6 hop => exact isWordOf_of_decodeJalr hop h
    case h_7 hop => exact isWordOf_of_decodeBranch hop h
    case h_8 hop => exact isWordOf_of_decodeLoad hop h
    case h_9 hop => exact isWordOf_of_decodeStore hop h
    case h_10 hop => exact isWordOf_of_decodeAmo hop h
    case h_11 hop => exact isWordOf_of_decodeMiscMem hop h
    case h_12 hop => exact isWordOf_of_decodeSystem hop h
    case h_13 => cases h

end Encodes

/-! ### The statements -/

/-- Settles O1: the word's fields are the operands that it was built from. -/
theorem decodeEncodeRoundTrip : Obligations.DecodeEncodeRoundTrip := fun _ => decode_encode

/-- Settles O2: each branch of the decoder that answers has the fixed fields of the instruction's format, and a word is made of
its fields. -/
theorem decodedWordEncodesBack : Obligations.DecodedWordEncodesBack := fun _ _ => isWordOf_of_decode

/-- Settles O5: the fields of each word are literals. -/
theorem sampleWordsDecode : Obligations.SampleWordsDecode :=
  ⟨rfl, rfl, rfl, rfl, rfl, rfl, rfl, rfl, rfl, rfl, rfl, rfl, rfl, rfl, rfl⟩

end Sys2Proof
end

section
/-! PROOF. Reset, launch and the invariant: the values after a cold start and a restart (R170, R801), the launches that succeed
(R13, R802, R803), the end of a run (R775), and the invariant kept by each operation of the model and so by each step. -/

namespace Sys2Proof.Machine

open Sys2Proof.Claims

/-! ### The end of a run (R775) -/

/-- The run has ended: after `poweroff`, after `fatal`, or the host has stopped. -/
def State.RunEnded (s : State) : Prop :=
  s.phase = .stopped ∨ (∃ c, s.phase = .ready (some (.poweroff c))) ∨
    ∃ cause tval, s.phase = .ready (some (.fatal cause tval))

section Run

variable {s t : State} {i : Instr}

theorem step_runEnded (h : s.RunEnded) : step s = .fault .runEnded := by
  unfold step
  obtain h | ⟨c, h⟩ | ⟨cause, tval, h⟩ := h <;> rw [h]

/-- The instruction cycle always goes on. -/
theorem runInstr_next (s : State) : ∃ t, runInstr s = .next t := by
  obtain ⟨e, h⟩ | ⟨w, i, -, -, h⟩ := runInstr_cases s
  · exact ⟨_, h⟩
  · obtain ⟨t, ht, -⟩ := exec_effect i s
    exact ⟨t, h.trans ht⟩

theorem step_next (h : ¬ s.RunEnded) : ∃ t, step s = .next t := by
  cases hp : s.phase with
  | running left =>
    cases left with
    | zero => exact ⟨_, step_budget hp⟩
    | succ n =>
      rw [step_running hp]
      exact runInstr_next _
  | rebooted => exact ⟨_, step_call (.inl hp)⟩
  | stopped => exact absurd (.inl hp) h
  | ready last =>
    obtain _ | r := last
    · exact ⟨_, step_first hp⟩
    · cases r with
      | continues => exact ⟨_, step_call (.inr (.inl hp))⟩
      | idle => exact ⟨_, step_call (.inr (.inr hp))⟩
      | restart => exact ⟨_, step_restart hp⟩
      | fatal cause tval => exact absurd (.inr (.inr ⟨cause, tval, hp⟩)) h
      | poweroff c => exact absurd (.inr (.inl ⟨c, hp⟩)) h

theorem step_next_iff : (∃ t, step s = .next t) ↔ ¬ s.RunEnded := by
  refine ⟨fun ⟨t, ht⟩ hended => ?_, step_next⟩
  cases (step_runEnded hended).symm.trans ht

/-! ### The launch parameters (R12, R802) -/

/-- The parameters and the image of `t` are those of `s`. -/
def KeepsParameters (s t : State) : Prop := t.cfg = s.cfg ∧ t.firmware = s.firmware

theorem Effect.keepsParameters (h : Effect s i t) : KeepsParameters s t := by
  cases h with
  | wait => exact ⟨rfl, rfl⟩
  | trap | retire | jump | move | loadDevice | store | storeDevice | reserve | scStore | scFail | amo | mret | csr =>
    exact ⟨by simp, by simp⟩

theorem hostFirstCall_keepsParameters (s : State) : KeepsParameters s (hostFirstCall s) := by
  obtain ⟨-, h⟩ | ⟨_, _, _, -, h⟩ := hostFirstCall_cases s <;> rw [h] <;> exact ⟨by simp, by simp⟩

theorem hostCall_keepsParameters (s : State) : KeepsParameters s (hostCall s) := by
  obtain h | ⟨_, _, _, -, h⟩ := hostCall_cases s <;> rw [h] <;> exact ⟨by simp, by simp⟩

theorem hostRestart_keepsParameters (s : State) : KeepsParameters s (hostRestart s) := by
  obtain ⟨-, h⟩ | h := hostRestart_cases s <;> rw [h]
  · exact ⟨by simp, by simp⟩
  · exact ⟨rfl, rfl⟩

theorem step_keepsParameters (h : step s = .next t) : KeepsParameters s t := by
  obtain ⟨n, -, ⟨e, rfl⟩ | ⟨i, -, he⟩⟩ | ⟨-, rfl⟩ | ⟨-, rfl⟩ | ⟨-, rfl⟩ | ⟨-, rfl⟩ := step_cases h
  · exact ⟨by simp, by simp⟩
  · exact he.keepsParameters
  · exact ⟨rfl, rfl⟩
  · exact hostFirstCall_keepsParameters s
  · exact hostCall_keepsParameters s
  · exact hostRestart_keepsParameters s

end Run

/-! ### Word alignment (R103, R124, R126) -/

theorem wordAligned_iff {a : Word} : WordAligned a ↔ a.toNat % 4 = 0 := by
  unfold WordAligned
  rw [← BitVec.toNat_inj]
  simp

theorem wordAligned_add_four {a : Word} (h : WordAligned a) : WordAligned (a + 4) := by
  rw [wordAligned_iff] at h ⊢
  rw [BitVec.toNat_add]
  simp
  omega

theorem wordAligned_alignMask (v : Word) : WordAligned (alignMask v) := by
  have hmask : (0xFFFFFFFC : Word).extractLsb' 0 2 = 0 := by decide
  unfold WordAligned alignMask
  rw [BitVec.extractLsb'_and, hmask]
  exact BitVec.and_zero

/-! ### What the operations keep -/

section Keeps

variable {s t : State} {i : Instr}

/-- Another phase, when it may hold with the hart's wait and the parameters. -/
theorem State.Inv.setPhase (h : s.Inv) {p : Phase} (hwait : s.wfi = true → p = .ready (some .idle) ∨ p = .stopped)
    (hfatal : ∀ cause tval, p = .ready (some (.fatal cause tval)) → s.cfg.strictTraps = true) :
    State.Inv { s with phase := p } :=
  ⟨h.launch, h.memory, h.pcs, h.zero, hwait, hfatal⟩

theorem State.Inv.valid (h : s.Inv) : s.cfg.Valid := h.launch.1

/-- A hart that does not wait may be in every phase but `fatal`. -/
theorem State.Inv.setPhase_awake (h : s.Inv) (hw : s.wfi = false) {p : Phase}
    (hp : ∀ cause tval, p ≠ .ready (some (.fatal cause tval))) : State.Inv { s with phase := p } :=
  h.setPhase (fun hwait => nomatch hw.symm.trans hwait) fun cause tval he => absurd he (hp cause tval)

/-- Inside a batch the hart does not wait (R741). -/
theorem State.Inv.awake (h : s.Inv) {n : Nat} (hp : s.phase = .running n) : s.wfi = false := by
  by_contra hw
  obtain hidle | hstopped := h.wait (by simpa using hw)
  · cases hp.symm.trans hidle
  · cases hp.symm.trans hstopped

theorem State.Inv.setPc (h : s.Inv) {a : Word} (ha : WordAligned a) : (s.setPc a).Inv :=
  ⟨h.launch, h.memory, ⟨ha, h.pcs.2⟩, h.zero, h.wait, h.fatal⟩

theorem State.Inv.advance (h : s.Inv) : s.advance.Inv := h.setPc (wordAligned_add_four h.pcs.1)

theorem State.Inv.setX (h : s.Inv) (rd : Reg) (v : Word) : (s.setX rd v).Inv := by
  have hzero : (s.setX rd v).regs[0] = 0 := (s.setX_slot_zero rd v).trans h.zero
  rw [State.setX_eq]
  exact ⟨h.launch, h.memory, h.pcs, hzero, h.wait, h.fatal⟩

theorem State.Inv.retire (h : s.Inv) (rd : Reg) (v : Word) : (s.retire rd v).Inv := (h.setX rd v).advance

theorem State.Inv.trapEntry (h : s.Inv) (cause tval epc : Word) : (s.trapEntry cause tval epc).Inv := by
  obtain ⟨-, hmtvec, -⟩ := h.pcs
  exact ⟨h.launch, h.memory, ⟨hmtvec, hmtvec, wordAligned_alignMask epc⟩, h.zero, h.wait, h.fatal⟩

theorem State.Inv.trapReturn (h : s.Inv) : s.trapReturn.Inv := by
  obtain ⟨-, hmtvec, hmepc⟩ := h.pcs
  exact ⟨h.launch, h.memory, ⟨hmepc, hmtvec, hmepc⟩, h.zero, h.wait, h.fatal⟩

theorem State.Inv.takeException (h : s.Inv) (hw : s.wfi = false) (e : Exception) : (s.takeException e).Inv := by
  unfold State.takeException
  split
  case isTrue hstrict => exact h.setPhase (fun hwait => nomatch hw.symm.trans hwait) fun _ _ _ => hstrict
  case isFalse => exact (h.trapEntry _ _ _).setPhase_awake hw nofun

theorem State.Inv.reserve (h : s.Inv) (a : Word) : (s.reserve a).Inv :=
  ⟨h.launch, h.memory, h.pcs, h.zero, h.wait, h.fatal⟩

theorem State.Inv.clearReservation (h : s.Inv) : s.clearReservation.Inv :=
  ⟨h.launch, h.memory, h.pcs, h.zero, h.wait, h.fatal⟩

/-- A store to a mapped region lists no byte outside the regions (R201, R207). -/
theorem State.Inv.storeBytes (h : s.Inv) {a : Word} {w : Width} (ha : a.toNat % w.bytes = 0)
    (hr : region s.cfg a ≠ .unmapped) (v : Word) : (s.storeBytes a w v).Inv := by
  obtain ⟨hmem, hin, hpresent⟩ := h.memory
  have hspan : (s.storeBytes a w v).MemoryInRegions :=
    Memory.forall_writeLE (P := fun x => (s.cfg.ramBase.toNat ≤ x ∧ x < s.cfg.ramEnd) ∨
      (s.cfg.mmioBase.toNat ≤ x ∧ x < s.cfg.mmioEnd)) hin (fun _ hk => region_span h.valid ha hr hk) v
  exact ⟨h.launch, ⟨State.wf_storeBytes hmem a w v, hspan, hpresent⟩, h.pcs, h.zero, h.wait, h.fatal⟩

theorem State.Inv.pollKeyboard (h : s.Inv) : s.pollKeyboard.Inv := by
  unfold State.pollKeyboard
  split <;> exact ⟨h.launch, h.memory, h.pcs, h.zero, h.wait, h.fatal⟩

theorem State.Inv.takeKey (h : s.Inv) : s.takeKey.2.Inv := by
  have hpoll := h.pollKeyboard
  unfold State.takeKey
  split
  · exact hpoll
  · exact ⟨hpoll.launch, hpoll.memory, hpoll.pcs, hpoll.zero, hpoll.wait, hpoll.fatal⟩

theorem State.Inv.deviceLoad (h : s.Inv) (p : LoadPort) : (deviceLoad p s).2.Inv := by
  cases p with
  | uartData => exact h.takeKey
  | uartStatus => exact h.pollKeyboard
  | cmpLo | cmpHi | timeLo | timeHi => exact h
  | vblank => exact ⟨h.launch, h.memory, h.pcs, h.zero, h.wait, h.fatal⟩

/-- The swap leaves a slice of memory, no longer than the pixel region; the SYSCON store ends the batch or writes bytes. -/
theorem State.Inv.deviceStore (h : s.Inv) (hw : s.wfi = false) (p : StorePort) {w : Width}
    (ha : (s.cfg.mmioBase + p.offset s.cfg).toNat % w.bytes = 0) (v : Word) : (deviceStore p w v s).Inv := by
  cases p with
  | uartData | cmpLo | cmpHi => exact ⟨h.launch, h.memory, h.pcs, h.zero, h.wait, h.fatal⟩
  | swap =>
    obtain ⟨hmem, hin, -⟩ := h.memory
    exact ⟨h.launch, ⟨hmem, hin, Memory.wf_slice hmem _ _, Memory.mem_slice⟩, h.pcs, h.zero, h.wait, h.fatal⟩
  | syscon =>
    have hmapped : region s.cfg (s.cfg.mmioBase + s.cfg.sysconOff) ≠ .unmapped := by
      rw [show region s.cfg (s.cfg.mmioBase + s.cfg.sysconOff) = .mmio from StorePort.region h.valid .syscon]
      exact nofun
    show (sysconStore w v s).Inv
    unfold sysconStore
    split_ifs
    · exact h.setPhase_awake hw nofun
    · exact h.setPhase_awake hw nofun
    · exact h.storeBytes ha hmapped v

theorem State.Inv.csrRead (h : s.Inv) (n : CsrNum) : (csrRead n s).2.Inv := by
  unfold Machine.csrRead
  cases csrNamed s.cfg n with
  | dbgGetc => exact h.takeKey
  | _ => exact h

/-- The two CSRs that hold an address are written through the mask (R143). -/
theorem State.Inv.csrWrite (h : s.Inv) (n : CsrNum) (v : Word) : (csrWrite n v s).Inv := by
  obtain ⟨hpc, hmtvec, hmepc⟩ := h.pcs
  unfold Machine.csrWrite
  cases csrNamed s.cfg n with
  | mtvec => exact ⟨h.launch, h.memory, ⟨hpc, wordAligned_alignMask v, hmepc⟩, h.zero, h.wait, h.fatal⟩
  | mepc => exact ⟨h.launch, h.memory, ⟨hpc, hmtvec, wordAligned_alignMask v⟩, h.zero, h.wait, h.fatal⟩
  | _ => exact ⟨h.launch, h.memory, h.pcs, h.zero, h.wait, h.fatal⟩

theorem State.Inv.afterCsrWrite (h : s.Inv) (n : CsrNum) (reads writes : Bool) (v : Word) :
    (afterCsrWrite n reads writes v s).Inv := by
  have hread : (afterCsrRead n reads s).Inv := by
    cases reads
    · exact h
    · exact h.csrRead n
  cases writes
  · exact hread
  · exact hread.csrWrite n v

/-! ### Every instruction -/

theorem Effect.inv (he : Effect s i t) (h : s.Inv) (hw : s.wfi = false) : t.Inv := by
  cases he with
  | trap _ e => exact h.takeException hw e
  | retire v => exact h.retire _ v
  | jump _ ht => exact (h.setX _ _).setPc ht
  | move _ ht =>
    obtain rfl | ht := ht
    · exact h.advance
    · exact h.setPc ht
  | loadDevice p v => exact (h.deviceLoad p).retire _ v
  | store _ ha hr => exact (h.storeBytes ha hr _).advance
  | storeDevice _ ha _ hp => exact (h.deviceStore hw _ (storePort_address hp ▸ ha) _).advance
  | reserve rd rs1 aq rl v => exact (h.reserve _).retire rd v
  | scStore ha hr => exact (h.clearReservation.storeBytes ha (by simp [hr]) _).retire _ 0
  | scFail rd => exact h.clearReservation.retire rd 1
  | amo v _ ha hr => exact (h.storeBytes ha (by simp [hr]) v).retire _ _
  | mret => exact h.trapReturn
  | wait =>
    have hadv := h.advance
    exact ⟨hadv.launch, hadv.memory, hadv.pcs, hadv.zero, fun _ => .inl rfl, nofun⟩
  | csr old v => exact (h.afterCsrWrite _ _ _ v).retire _ old

/-! ### The host's turns -/

theorem State.Inv.dropTurn (h : s.Inv) : s.dropTurn.Inv := by
  unfold State.dropTurn
  split <;> exact ⟨h.launch, h.memory, h.pcs, h.zero, h.wait, h.fatal⟩

theorem State.Inv.hostVblank (h : s.Inv) (set : Bool) : (s.hostVblank set).Inv := by
  cases set
  · exact h
  · exact ⟨h.launch, h.memory, h.pcs, h.zero, h.wait, h.fatal⟩

theorem State.Inv.updateTimer (h : s.Inv) (elapsed : Word) : (s.updateTimer elapsed).Inv :=
  ⟨h.launch, h.memory, h.pcs, h.zero, h.wait, h.fatal⟩

theorem State.Inv.releaseWait (h : s.Inv) : s.releaseWait.Inv := by
  unfold State.releaseWait
  split
  · exact ⟨h.launch, h.memory, h.pcs, h.zero, nofun, h.fatal⟩
  · exact h

/-- A call that begins leaves a waiting hart idle, and an awake one trapped or running. -/
theorem State.Inv.startBatch (h : s.Inv) (elapsed : Word) (budget : Nat) : (s.startBatch elapsed budget).Inv := by
  have hu := (h.updateTimer elapsed).releaseWait
  obtain (⟨-, he⟩ | ⟨hw, -, he⟩) | ⟨hw, -, he⟩ := s.startBatch_cases elapsed budget <;> rw [he]
  · exact hu.setPhase (fun _ => .inl rfl) nofun
  · exact (hu.trapEntry _ _ _).setPhase_awake hw nofun
  · exact hu.setPhase_awake hw nofun

theorem State.Inv.stop (h : s.Inv) : State.Inv { s.dropTurn with phase := .stopped } :=
  h.dropTurn.setPhase (fun _ => .inr rfl) nofun

theorem State.Inv.hostFirstCall (h : s.Inv) : (hostFirstCall s).Inv := by
  obtain ⟨-, he⟩ | ⟨_, _, _, -, he⟩ := hostFirstCall_cases s <;> rw [he]
  · exact h.dropTurn
  · exact h.dropTurn.startBatch _ _

theorem State.Inv.hostCall (h : s.Inv) : (hostCall s).Inv := by
  obtain he | ⟨_, _, _, -, he⟩ := hostCall_cases s <;> rw [he]
  · exact h.stop
  · exact (h.dropTurn.hostVblank _).startBatch _ _

/-- The image lies in RAM, which begins at a word address. -/
theorem State.resetAll_inv (hlaunch : s.LaunchLegal) (hwf : s.present.wf = true)
    (hbound : ∀ cell ∈ s.present, cell.1 < s.cfg.fbBytes) : s.resetAll.Inv where
  launch := hlaunch
  memory := by
    obtain ⟨-, hl⟩ := hlaunch
    refine ⟨Memory.wf_ofImage _ _, fun cell hcell => .inl ?_, hwf, hbound⟩
    obtain ⟨hlow, hhigh⟩ := Memory.mem_ofImage cell hcell
    exact ⟨hlow, lt_of_lt_of_le hhigh (Nat.add_le_add_left hl _)⟩
  pcs := by
    obtain ⟨⟨⟨hbase, -⟩, -⟩, -⟩ := hlaunch
    exact ⟨wordAligned_iff.2 hbase, rfl, rfl⟩
  zero := rfl
  wait := nofun
  fatal := nofun

theorem State.Inv.hostRestart (h : s.Inv) : (hostRestart s).Inv := by
  obtain ⟨-, he⟩ | he := hostRestart_cases s <;> rw [he]
  · exact h.stop
  · obtain ⟨-, -, hwf, hbound⟩ := h.memory
    exact (State.resetAll_inv h.launch hwf hbound).setPhase_awake rfl nofun

/-! ### Every step -/

theorem State.Inv.step (h : s.Inv) (hs : step s = .next t) : t.Inv := by
  obtain ⟨n, hp, hbegun⟩ | ⟨hp, rfl⟩ | ⟨-, rfl⟩ | ⟨-, rfl⟩ | ⟨-, rfl⟩ := step_cases hs
  · have hw := h.awake hp
    have hbegin : (s.beginInstr n).Inv :=
      ⟨h.launch, h.memory, h.pcs, h.zero, fun hwait => absurd hwait (by simp [hw]), nofun⟩
    obtain ⟨e, rfl⟩ | ⟨i, -, he⟩ := hbegun
    · exact hbegin.takeException hw e
    · exact he.inv hbegin hw
  · exact h.setPhase_awake (h.awake hp) nofun
  · exact h.hostFirstCall
  · exact h.hostCall
  · exact h.hostRestart

end Keeps

/-! ### Launch and reset (R13, R170, R801 to R803) -/

theorem coldStart_inv {c : Config} {image : List Byte} (hc : c.Valid) (hl : image.length ≤ c.ramSize.toNat) :
    (coldStart c image).Inv :=
  State.resetAll_inv ⟨hc, hl⟩ rfl nofun

section Launch

variable {c : Config} {image : List Byte}

theorem launch_illegal (hc : ¬ c.Valid) : launch c image = .error .illegalConfiguration := if_pos hc

theorem launch_tooLarge (hc : c.Valid) (hl : c.ramSize.toNat < image.length) :
    launch c image = .error .firmwareTooLarge :=
  (if_neg (not_not_intro hc)).trans (if_pos hl)

theorem launch_legal (hc : c.Valid) (hl : image.length ≤ c.ramSize.toNat) : launch c image = .ok (coldStart c image) :=
  (if_neg (not_not_intro hc)).trans (if_neg (not_lt.2 hl))

theorem launch_eq_ok {s : State} :
    launch c image = .ok s ↔ c.Valid ∧ image.length ≤ c.ramSize.toNat ∧ s = coldStart c image := by
  refine ⟨fun h => ?_, fun ⟨hc, hl, hs⟩ => hs ▸ launch_legal hc hl⟩
  by_cases hc : c.Valid
  · obtain hl | hl := le_or_gt image.length c.ramSize.toNat
    · exact ⟨hc, hl, Except.ok.inj (h.symm.trans (launch_legal hc hl))⟩
    · cases (launch_tooLarge hc hl).symm.trans h
  · cases (launch_illegal hc).symm.trans h

end Launch

/-- The spec's test configuration is legal (R14). -/
theorem testConfig_valid : Config.testConfig.Valid := by decide

/-- Step 1 of a batch call sets MTIP and nothing after it writes it (R740). -/
theorem State.startBatch_mtip (s : State) (elapsed : Word) (budget : Nat) :
    (s.startBatch elapsed budget).mtip = decide (s.mtimecmp.toNat ≤ (s.mtime + elapsed.setWidth 64).toNat) := by
  obtain (⟨-, he⟩ | ⟨-, -, he⟩) | ⟨-, -, he⟩ := s.startBatch_cases elapsed budget <;> simp [he]

theorem coldStart_x (c : Config) (image : List Byte) (r : Reg) : (coldStart c image).x r = 0 := by
  simp [State.x, coldStart, State.resetAll, State.reset]

/-! ### The statements -/

/-- Settles O13: each operation keeps the invariant, and a step is made of these. -/
theorem everyStepKeepsInvariant : Obligations.EveryStepKeepsInvariant := fun _ _ => State.Inv.step

/-- Settles O12: the reset state is a cold start, and the test configuration is legal. -/
theorem invariantHoldsAtReset : Obligations.InvariantHoldsAtReset :=
  ⟨coldStart_inv testConfig_valid (Nat.zero_le _), rfl⟩

/-- Settles O11: a launch checks the configuration, then the size of the image. -/
theorem launchAcceptsExactlyLegalParameters : Obligations.LaunchAcceptsExactlyLegalParameters := by
  refine ⟨fun c image s => launch_eq_ok, fun c image => launch_tooLarge, fun c hc => ?_, fun c image s h => ?_⟩
  · exact ⟨_, launch_eq_ok.2 ⟨hc, Nat.zero_le _, rfl⟩⟩
  · obtain ⟨hc, hl, rfl⟩ := launch_eq_ok.1 h
    exact coldStart_inv hc hl

/-- Settles O14: nothing writes the parameters or the image, and a reset keeps them. -/
theorem launchParametersNeverChange : Obligations.LaunchParametersNeverChange := fun _ _ => step_keepsParameters

/-- Settles O15: every phase but those that end the run has a step. -/
theorem runEndsOnlyAsListed : Obligations.RunEndsOnlyAsListed := by
  intro s
  refine ⟨step_next_iff.trans ?_, fun h => step_runEnded (not_not.1 (mt step_next_iff.2 h))⟩
  simp only [State.RunEnded, not_or, not_exists, ne_eq]

/-- Settles O10: each register has its listed value, memory holds the image alone, and with `mtimecmp` 0 the first timer update
sets MTIP; a restart differs from a cold start in what `resetAll` keeps. -/
theorem resetGivesTheListedValues : Obligations.ResetGivesTheListedValues := by
  refine ⟨fun c image => ?coldStart, fun s setVblank elapsed budget hp hturn => ?restart⟩
  case coldStart =>
    refine ⟨coldStart_x c image, rfl, rfl, rfl, rfl, rfl, rfl, rfl, rfl, rfl, rfl, rfl, rfl, rfl, rfl, rfl, rfl, rfl, rfl, rfl,
      rfl, fun k => rfl, Memory.wf_ofImage _ _, fun k => Memory.read_ofImage _ k image,
      fun a => Memory.read_ofImage_below image, fun elapsed budget => ?_⟩
    rw [State.startBatch_mtip]
    exact decide_eq_true (Nat.zero_le _)
  case restart =>
    rw [step_restart hp]
    unfold hostRestart
    rw [hturn]
    rfl

end Sys2Proof.Machine
end

section
/-! PROOF. Devices and memory as the program sees them: the keyboard polls of the UART (R154, R242, R243), the SYSCON store (R253 to
R256), the dispatcher's table (R240), and stores read back by loads and fetches (R204, R222). -/

namespace Sys2Proof.Machine

open Sys2Proof.Claims

/-! ### The keyboard (R154, R773) -/

section Keyboard

variable {s : State} {i : Instr}

/-- The state after a poll that leaves the queue `q`. -/
def State.polled (s : State) (q : List Byte) : State :=
  { s with kbd := q, keyFeed := s.keyFeed.tail, draws := if s.keyFeed = [] then s.draws + 1 else s.draws }

theorem State.pollKeyboard_eq (s : State) : s.pollKeyboard = s.polled (queueAtPoll s) := by
  unfold State.pollKeyboard State.polled queueAtPoll arrivals
  split
  · next h => simp [h]
  · next h => simp [h]

theorem State.takeKey_of_cons {b : Byte} {rest : List Byte} (h : queueAtPoll s = b :: rest) :
    s.takeKey = (some (b.setWidth 32), s.polled rest) := by
  unfold State.takeKey
  rw [State.pollKeyboard_eq, h]
  rfl

theorem State.takeKey_of_nil (h : queueAtPoll s = []) : s.takeKey = (none, s.polled []) := by
  unfold State.takeKey
  rw [State.pollKeyboard_eq, h]
  rfl

/-- An instruction that polls and then retires, in the words of the statements. -/
theorem polls_of_exec {rd : Reg} {v : Word} {q : List Byte} (h : exec i s = .next ((s.polled q).retire rd v)) :
    ∃ t, exec i s = .next t ∧ RegisterWritten s t rd v ∧ t.pc = s.pc + 4 ∧ PolledTo s t q := by
  refine ⟨_, h, registerWritten_retire rfl rd v, State.retire_pc _ _ _, State.retire_kbd _ _ _, State.retire_keyFeed _ _ _,
    State.retire_draws _ _ _, ?_⟩
  rw [State.retire_kbd, State.retire_keyFeed, State.retire_draws, State.retire_pc]
  exact State.retire_eq _ _ _

end Keyboard

/-- An empty queue's value is 0 in every load. -/
theorem extend_zero (f : LoadForm) : f.extend 0 = 0 := by cases f <;> rfl

theorem lineStatus_eq (q : List Byte) : lineStatus q = if q = [] then 0x60 else 0x61 := by
  cases q <;> simp [lineStatus, truthWord]

/-! ### The dispatcher's table (R240) -/

section Table

variable {c : Config} {a : Word}

theorem loadPort_eq_some_iff (hc : c.Valid) (p : LoadPort) : loadPort c a = some p ↔ a = c.mmioBase + p.offset c :=
  ⟨loadPort_address, fun h => h ▸ loadPort_offset hc p⟩

theorem storePort_eq_some_iff (hc : c.Valid) (p : StorePort) : storePort c a = some p ↔ a = c.mmioBase + p.offset c :=
  ⟨storePort_address, fun h => h ▸ storePort_offset hc p⟩

theorem inMmio_of_intercepted (hc : c.Valid) (h : a ∈ interceptedLoads c ∨ a ∈ interceptedStores c) : InMmio c a := by
  obtain h | h := h
  · obtain ⟨p, hp⟩ := Option.ne_none_iff_exists'.1 (mt loadPort_eq_none_iff_notMem.1 (not_not_intro h))
    exact loadPort_address hp ▸ region_eq_mmio.1 (p.region hc)
  · obtain ⟨p, hp⟩ := Option.ne_none_iff_exists'.1 (mt storePort_eq_none_iff_notMem.1 (not_not_intro h))
    exact storePort_address hp ▸ region_eq_mmio.1 (p.region hc)

/-- A device register whose stores only are intercepted gives its backing bytes to a load. -/
theorem loadReachesBytes_at_storePort (hc : c.Valid) (q : StorePort) (hq : ∀ p : LoadPort, q.index ≠ p.index) :
    LoadReachesBytes c (c.mmioBase + q.offset c) := by
  refine .inr ⟨region_eq_mmio.1 (q.region hc), loadPort_eq_none_iff_notMem.1 (loadPort_eq_none.2 fun p => ?_)⟩
  exact device_ne hc (hq p) (q.offset_index c) (p.offset_index c)

end Table

/-! ### The SYSCON store (R253 to R256) -/

section Syscon

variable {s : State} {w : Width} {v : Word}

theorem sysconStore_restart (h : v = s.cfg.sysconRestart) : sysconStore w v s = s.endBatch .restart := if_pos h

theorem sysconStore_poweroff (hr : v ≠ s.cfg.sysconRestart) (h : v = s.cfg.sysconPoweroff) :
    sysconStore w v s = s.endBatch (.poweroff s.cycle64) :=
  (if_neg hr).trans (if_pos h)

theorem sysconStore_inert (hr : v ≠ s.cfg.sysconRestart) (hp : v ≠ s.cfg.sysconPoweroff) :
    sysconStore w v s = s.storeBytes (s.cfg.mmioBase + s.cfg.sysconOff) w v :=
  (if_neg hr).trans (if_neg hp)

end Syscon

/-! ### Words in RAM (R204, R222) -/

section Ram

variable {s : State}

theorem exec_sw_ram {rs1 : Reg} (rs2 : Reg) {imm : BitVec 12} (ha : Aligned (effective s rs1 imm) .word)
    (hr : InRam s.cfg (effective s rs1 imm)) :
    exec (.sw rs1 rs2 imm) s = .next (s.storeBytes (effective s rs1 imm) .word (s.x rs2)).advance := by
  have hram : region s.cfg (effective s rs1 imm) = .ram := region_eq_ram.2 hr
  exact exec_store_bytes (f := .sw) rs2 ha (by simp [hram]) (.inl hram)

theorem lbu_retires (rd : Reg) {rs1 : Reg} {imm : BitVec 12} {a : Word} (ha : effective s rs1 imm = a) (hr : InRam s.cfg a) :
    Retires (.lbu rd rs1 imm) s rd ((Memory.read s.mem a.toNat).setWidth 32) := by
  subst ha
  have h := load_retires_bytes (f := .lbu) rd (Nat.mod_one _) (.inl hr)
  simpa [LoadForm.extend, LoadForm.width, LoadForm.instr, bytesValue] using h

theorem fetch_advance_ram (ha : Aligned (s.pc + 4) .word) (hr : InRam s.cfg (s.pc + 4)) :
    s.advance.fetch = .ok (s.loadBytes (s.pc + 4) .word) :=
  State.fetch_ram ha (region_eq_ram.2 hr)

end Ram

/-! ### The statements -/

/-- Settles O24: both loads are intercepted at their own addresses and poll once; the data load takes the head of the queue that
the poll sees. -/
theorem uartLoadsPollTheKeyboard : Obligations.UartLoadsPollTheKeyboard := by
  refine fun f s rd rs1 imm hc ha => ⟨fun he => ?data, fun he => ?status⟩
  case data =>
    have hexec := exec_load_at rd .uartData hc ha he
    refine ⟨fun b rest hq => polls_of_exec ?_, fun hq => polls_of_exec ?_⟩
    · rw [hexec, deviceLoad, State.takeKey_of_cons hq]
      rfl
    · rw [hexec, deviceLoad, State.takeKey_of_nil hq, Option.getD_none, extend_zero]
  case status =>
    refine polls_of_exec ?_
    rw [exec_load_at rd .uartStatus hc ha he, deviceLoad, State.pollKeyboard_eq, ← lineStatus_eq]
    rfl

/-- Settles O31: a port answers at its own address and at no other, and every port lies in the window. -/
theorem dispatcherInterceptsExactlyTheTable : Obligations.DispatcherInterceptsExactlyTheTable :=
  fun _ _ hc => ⟨loadPort_eq_none_iff_notMem, storePort_eq_none_iff_notMem, loadPort_eq_some_iff hc .uartData,
    loadPort_eq_some_iff hc .uartStatus, loadPort_eq_some_iff hc .cmpLo, loadPort_eq_some_iff hc .cmpHi,
    loadPort_eq_some_iff hc .timeLo, loadPort_eq_some_iff hc .timeHi, loadPort_eq_some_iff hc .vblank,
    storePort_eq_some_iff hc .uartData, storePort_eq_some_iff hc .cmpLo, storePort_eq_some_iff hc .cmpHi,
    storePort_eq_some_iff hc .swap, storePort_eq_some_iff hc .syscon, inMmio_of_intercepted hc⟩

/-- Settles O30: the store is intercepted and compares the full value with the two sentinels, which differ; a load there is not
intercepted. -/
theorem sysconStoreActs : Obligations.SysconStoreActs := by
  intro f s rs1 rs2 imm hc hm i v he
  have hal : ∀ w, Aligned (s.cfg.mmioBase + s.cfg.sysconOff) w := wordRegister_aligned hc (by simp [wordRegisters])
  have hexec : exec i s = .next (sysconStore f.width v s).advance := exec_store_at rs2 .syscon hc (he ▸ hal f.width) he
  have hdiffer : s.cfg.sysconRestart ≠ s.cfg.sysconPoweroff := by
    obtain ⟨-, -, -, -, -, -, hdiffer⟩ := hc
    exact hdiffer
  refine ⟨fun hv => ?restart, fun hv => ?poweroff, fun hr hp => ?inert⟩
  case restart =>
    rw [sysconStore_restart hv] at hexec
    refine ⟨_, hexec, rfl, fun setVblank elapsed budget hturn => ?_⟩
    rw [step_restart rfl]
    unfold hostRestart
    rw [hturn]
  case poweroff =>
    rw [sysconStore_poweroff (hv ▸ hdiffer.symm) hv] at hexec
    exact ⟨_, hexec, rfl, rfl⟩
  case inert =>
    rw [sysconStore_inert hr hp] at hexec
    refine ⟨_, hexec, State.storeBytes_bytesStored hm _ _ _, rfl, fun g rd => ?_⟩
    rw [← he]
    refine load_retires_bytes rd (he ▸ hal g.width) ?_
    exact he ▸ loadReachesBytes_at_storePort hc .syscon fun p => by cases p <;> decide

/-- Settles O33: the bytes of a stored word stand one by one at its address, and a fetch reads them back together. -/
theorem memoryIsLittleEndianAndCoherent : Obligations.MemoryIsLittleEndianAndCoherent := by
  constructor
  · intro s t rs1 rs2 rd imm k hc hm hk ea ha hr h b off hb
    cases (exec_sw_ram rs2 ha hr).symm.trans h
    rw [← Memory.read_writeLE_inside hm ea.toNat (s.x rs2) hk, ← aligned_toNat_add ha hk]
    exact lbu_retires rd hb ((inRam_add_iff hc ha hk).2 hr)
  · intro s t rs1 rs2 imm hm he ha hr h
    cases (exec_sw_ram rs2 (he ▸ ha) (he ▸ hr)).symm.trans h
    rw [he, fetch_advance_ram (s := s.storeBytes (s.pc + 4) .word (s.x rs2)) ha hr, State.storeBytes_pc,
      State.loadBytes_storeBytes hm]

end Sys2Proof.Machine
end

section
/-! PROOF. The identity of division (R559), SC.W (R601), and what an LR.W guarantees to a later SC.W (R613). -/

namespace Sys2Proof.Machine

open Sys2Proof.Claims

/-! ### Quotient and remainder (R559) -/

/-- The signed identity: both sentinel cases by their values, else the remainder is defined by it. -/
theorem divSigned_remSigned (a b : Word) : a = b * divSigned a b + remSigned a b := by
  by_cases hb : b = 0
  · rw [remSigned_of_zero hb, hb, zero_mul, zero_add]
  · by_cases ho : a = 0x80000000 ∧ b = 0xFFFFFFFF
    · obtain ⟨hdiv, -, hrem, -⟩ := quotients_of_overflow ho.1 ho.2
      rw [hdiv, hrem, ho.1, ho.2]
      decide
    · rw [divSigned_of_ne_zero hb ho, remSigned_of_ne_zero hb ho]
      calc a = BitVec.ofInt 32 (b.toInt * a.toInt.tdiv b.toInt + a.toInt.tmod b.toInt) := by
            rw [Int.mul_tdiv_add_tmod, BitVec.ofInt_toInt]
        _ = b * BitVec.ofInt 32 (a.toInt.tdiv b.toInt) + BitVec.ofInt 32 (a.toInt.tmod b.toInt) := by
            rw [BitVec.ofInt_add, BitVec.ofInt_mul, BitVec.ofInt_toInt]

theorem divUnsigned_remUnsigned (a b : Word) : a = b * divUnsigned a b + remUnsigned a b := by
  by_cases hb : b = 0
  · rw [remUnsigned_of_zero hb, hb, zero_mul, zero_add]
  · rw [divUnsigned_of_ne_zero hb, remUnsigned_of_ne_zero hb]
    calc a = BitVec.ofNat 32 (b.toNat * (a.toNat / b.toNat) + a.toNat % b.toNat) := by
          rw [Nat.div_add_mod, BitVec.ofNat_toNat, BitVec.setWidth_eq]
      _ = b * BitVec.ofNat 32 (a.toNat / b.toNat) + BitVec.ofNat 32 (a.toNat % b.toNat) := by
          rw [BitVec.ofNat_add, BitVec.ofNat_mul, BitVec.ofNat_toNat, BitVec.setWidth_eq]

section Reservation

variable {s t u : State} {rd rs1 rs2 : Reg} {aq rl : Bool}

/-! ### SC.W (R601) -/

theorem State.reserved_iff {a : Word} : s.reserved a = true ↔ s.resvValid = true ∧ s.resvAddr = a := by
  simp [State.reserved]

/-- With the reservation of its address. -/
theorem exec_scW_succeeds (rd : Reg) (rs2 : Reg) (aq rl : Bool) (ha : Aligned (s.x rs1) .word) (hr : InRam s.cfg (s.x rs1))
    (hv : s.resvValid = true ∧ s.resvAddr = s.x rs1) : exec (.scW rd rs1 rs2 aq rl) s =
      .next ((s.clearReservation.storeBytes (s.x rs1) .word (s.x rs2)).retire rd 0) := by
  rw [exec_scW_ram rd rs2 aq rl ha hr, if_pos (State.reserved_iff.2 hv)]

theorem exec_scW_fails (rd : Reg) (rs2 : Reg) (aq rl : Bool) (ha : Aligned (s.x rs1) .word) (hr : InRam s.cfg (s.x rs1))
    (hv : ¬ (s.resvValid = true ∧ s.resvAddr = s.x rs1)) :
    exec (.scW rd rs1 rs2 aq rl) s = .next (s.clearReservation.retire rd 1) := by
  rw [exec_scW_ram rd rs2 aq rl ha hr, if_neg (mt State.reserved_iff.1 hv)]

/-! ### What lasts from an LR.W to an SC.W (R613) -/

/-- Steps that begin neither LR.W nor SC.W and perform no reset keep the reservation and the parameters. -/
theorem ReachesKeepingReservation.keeps (h : ReachesKeepingReservation s t) :
    KeepsReservation s t ∧ KeepsParameters s t := by
  induction h with
  | refl => exact ⟨⟨rfl, rfl⟩, rfl, rfl⟩
  | tail _ hstep hi hp ih =>
    obtain ⟨⟨hvalid, haddr⟩, hcfg, hfirmware⟩ := ih
    obtain ⟨hvalid', haddr'⟩ := step_keepsReservation hstep hi hp
    obtain ⟨hcfg', hfirmware'⟩ := step_keepsParameters hstep
    exact ⟨⟨hvalid'.trans hvalid, haddr'.trans haddr⟩, hcfg'.trans hcfg, hfirmware'.trans hfirmware⟩

/-- An AMO on an aligned RAM word completes and leaves the batch as it is. -/
theorem amo_completes {i : Instr} {op : Word → Word → Word} (hi : exec i s = amoWith op rd rs1 rs2 s)
    (ha : Aligned (s.x rs1) .word) (hr : InRam s.cfg (s.x rs1)) :
    ∃ t, exec i s = .next t ∧ t.pc = s.pc + 4 ∧ t.phase = s.phase :=
  ⟨_, hi.trans (amoWith_ram ha hr), State.retire_pc _ _ _, State.retire_phase _ _ _⟩

end Reservation

/-! ### The statements -/

/-- Settles O37: the quotient and the remainder of each division are those of the two identities. -/
theorem divisionIdentity : Obligations.DivisionIdentity :=
  fun s _ rs1 rs2 => ⟨divSigned (s.x rs1) (s.x rs2), remSigned (s.x rs1) (s.x rs2), divUnsigned (s.x rs1) (s.x rs2),
    remUnsigned (s.x rs1) (s.x rs2), retires_of_exec rfl, retires_of_exec rfl, divSigned_remSigned _ _,
    retires_of_exec rfl, retires_of_exec rfl, divUnsigned_remUnsigned _ _⟩

/-- Settles O39: funct5 selects SC.W, the reservation decides between a store and none, and the check of its address comes
before. -/
theorem storeConditionalSucceedsOrFails : Obligations.StoreConditionalSucceedsOrFails := by
  refine ⟨spelledBy_funct5 0b00011 ?encoding (by decide) fun _ => rfl,
    fun s rd rs1 rs2 aq rl hm => ⟨fun ha hr hv hv' => ?succeeds, fun ha hr hv => ?fails, fun ha => ?misaligned,
      fun ha hr => ?outside⟩⟩
  case encoding =>
    intro w h3 h5
    simp only [decodeAmo, h3, h5]
    rfl
  case succeeds =>
    refine ⟨_, exec_scW_succeeds rd rs2 aq rl ha hr ⟨hv, hv'⟩, registerWritten_retire rfl rd 0, State.retire_pc _ _ _,
      State.storeBytes_retire_bytesStored (s := s.clearReservation) hm _ _ _ _, ?_⟩
    rw [State.retire_pc, State.retire_mem]
    exact State.retire_eq _ _ _
  case fails =>
    refine ⟨_, exec_scW_fails rd rs2 aq rl ha hr hv, registerWritten_retire rfl rd 1, State.retire_pc _ _ _, ?_⟩
    rw [State.retire_pc]
    exact State.retire_eq _ _ _
  case misaligned => exact scW_raises rd rs2 aq rl (writeCheck_misaligned .amo ha)
  case outside =>
    have hram : region s.cfg (s.x rs1) ≠ .ram := mt region_eq_ram.1 hr
    exact scW_raises rd rs2 aq rl (writeCheck_unreached ha (WriteKind.amo_reaches_eq_false.2 hram))

/-- Settles O42: the reservation that LR.W sets is still there when SC.W begins, and the address is still in RAM. -/
theorem reservedPairAlwaysSucceeds : Obligations.ReservedPairAlwaysSucceeds := by
  refine ⟨fun s rd rs1 rs2 aq rl ha hr => ?amo, fun s u t rd rs1 rd' rs1' rs2' aq rl aq' rl' ha hr hlr hreach hx => ?pair⟩
  case amo =>
    simp only [List.forall_mem_cons, List.not_mem_nil, false_imp_iff, implies_true, and_true]
    exact ⟨amo_completes (op := fun _ b => b) rfl ha hr, amo_completes (op := (· + ·)) rfl ha hr,
      amo_completes (op := (· ^^^ ·)) rfl ha hr, amo_completes (op := (· &&& ·)) rfl ha hr,
      amo_completes (op := (· ||| ·)) rfl ha hr, amo_completes (op := minSigned) rfl ha hr,
      amo_completes (op := maxSigned) rfl ha hr, amo_completes (op := minUnsigned) rfl ha hr,
      amo_completes (op := maxUnsigned) rfl ha hr⟩
  case pair =>
    cases (exec_lrW_ram rd aq rl ha hr).symm.trans hlr
    obtain ⟨⟨hvalid, haddr⟩, hcfg, -⟩ := hreach.keeps
    simp only [State.retire_resvValid, State.reserve_resvValid, State.retire_resvAddr, State.reserve_resvAddr,
      State.retire_cfg, State.reserve_cfg] at hvalid haddr hcfg
    rw [← hx] at ha hr haddr
    rw [← hcfg] at hr
    exact ⟨_, exec_scW_succeeds rd' rs2' aq' rl' ha hr ⟨hvalid, haddr⟩, registerWritten_retire rfl rd' 0,
      State.retire_resvValid _ _ _⟩

end Sys2Proof.Machine
end

section
/-! PROOF. The diagnostic CSRs (R132 to R136): the digits of the decimal and of the hexadecimal text, the bytes of the guest string, and
the keyboard read. -/

namespace Sys2Proof.Machine

open Sys2Proof.Claims

/-! ### Decimal text (R132) -/

/-- The decimal digits of a number, the first the most significant: one digit 0 for 0, else no leading zero. -/
def decimalValues (n : Nat) : List Nat := if n = 0 then [0] else (Nat.digits 10 n).reverse

theorem decimalValues_lt {n : Nat} : ∀ d ∈ decimalValues n, d < 10 := by
  intro d hd
  unfold decimalValues at hd
  split at hd
  · simp_all
  · exact Nat.digits_lt_base (by decide) (List.mem_reverse.1 hd)

theorem decimalValues_ne_nil (n : Nat) : decimalValues n ≠ [] := by
  unfold decimalValues
  split
  · exact List.cons_ne_nil _ _
  · next h => exact fun hnil => h (Nat.digits_eq_nil_iff_eq_zero.1 (List.reverse_eq_nil_iff.1 hnil))

theorem decimalValues_head {n : Nat} (h : (decimalValues n).head? = some 0) : decimalValues n = [0] := by
  unfold decimalValues at h ⊢
  split at h
  · next hn => rw [if_pos hn]
  · next hn =>
    rw [List.head?_reverse, List.getLast?_eq_some_getLast (Nat.digits_ne_nil_iff_ne_zero.2 hn)] at h
    exact absurd (Option.some.inj h) (Nat.getLast_digit_ne_zero 10 hn)

/-- The value of the digits is the number. -/
theorem decimalValues_foldl (n : Nat) : (decimalValues n).foldl (fun n d => 10 * n + d) 0 = n := by
  unfold decimalValues
  split
  · next hn => simp [hn]
  · rw [List.foldl_reverse]
    conv_rhs => rw [← Nat.ofDigits_digits 10 n, Nat.ofDigits_eq_foldr]
    simp [add_comm]

/-- The last digit stands behind the digits of the rest. -/
theorem decimalValues_of_ge {n : Nat} (h : 10 ≤ n) : decimalValues n = decimalValues (n / 10) ++ [n % 10] := by
  unfold decimalValues
  rw [if_neg (by omega), if_neg (by omega), Nat.digits_def' (by decide) (by omega), List.reverse_cons]

theorem decimalValues_of_lt {n : Nat} (h : n < 10) : decimalValues n = [n] := by
  unfold decimalValues
  split
  · next hn => rw [hn]
  · next hn => rw [Nat.digits_of_lt 10 n hn h, List.reverse_singleton]

/-- The model's digits in ASCII, when there is fuel for all of them. -/
theorem decimalDigits_eq {fuel n : Nat} (h : n < 10 ^ (fuel + 1)) :
    decimalDigits (fuel + 1) n = (decimalValues n).map fun d => BitVec.ofNat 8 (0x30 + d) := by
  induction fuel generalizing n with
  | zero =>
    have hn : n < 10 := by simpa using h
    rw [decimalValues_of_lt hn, decimalDigits, if_pos hn, Nat.mod_eq_of_lt hn]
    rfl
  | succ fuel ih =>
    rw [decimalDigits]
    obtain hn | hn := lt_or_ge n 10
    · rw [decimalValues_of_lt hn, if_pos hn, Nat.mod_eq_of_lt hn]
      rfl
    · rw [decimalValues_of_ge hn, if_neg (by omega), ih (by rw [pow_succ] at h; omega), List.map_append]
      rfl

/-- Ten digits are enough for every magnitude. -/
theorem decimalText_eq (v : Word) : decimalText v =
    (if v.toInt < 0 then [0x2D#8] else []) ++ (decimalValues v.toInt.natAbs).map fun d => BitVec.ofNat 8 (0x30 + d) := by
  have hlow := BitVec.le_toInt v
  have hhigh := BitVec.toInt_lt (x := v)
  unfold decimalText
  rw [decimalDigits_eq (by omega)]
  split <;> rfl

/-! ### Hexadecimal text (R133) -/

/-- The eight hexadecimal digits of a word, the first the most significant. -/
def hexValues (v : Word) : List Nat := [28, 24, 20, 16, 12, 8, 4, 0].map fun k => (v.extractLsb' k 4).toNat

theorem hexDigit_eq (d : BitVec 4) :
    hexDigit d = BitVec.ofNat 8 (if d.toNat < 10 then 0x30 + d.toNat else 0x61 + (d.toNat - 10)) := by
  revert d
  decide

theorem hexText_eq (v : Word) :
    hexText v = (hexValues v).map fun d => BitVec.ofNat 8 (if d < 10 then 0x30 + d else 0x61 + (d - 10)) := by
  simp only [hexText, hexValues, hexDigit_eq, List.map_cons, List.map_nil]

theorem hexValues_lt {v : Word} : ∀ d ∈ hexValues v, d < 16 := by
  intro d hd
  obtain ⟨k, -, rfl⟩ := List.mem_map.1 hd
  exact BitVec.isLt _

theorem hexValues_foldl (v : Word) : (hexValues v).foldl (fun n d => 16 * n + d) 0 = v.toNat := by
  have hv := v.isLt
  simp only [hexValues, List.map_cons, List.map_nil, List.foldl_cons, List.foldl_nil, BitVec.extractLsb'_toNat,
    Nat.shiftRight_eq_div_pow]
  omega

/-! ### The guest string (R134) -/

/-- The string holds the bytes from `a` on, none of them zero. -/
theorem Memory.cstring_bytes {m : Memory} {a n k : Nat} (hk : k < (Memory.cstring m a n).length) :
    k < n ∧ (Memory.cstring m a n)[k]? = some (Memory.read m (a + k)) ∧ Memory.read m (a + k) ≠ 0 := by
  induction n generalizing a k with
  | zero => exact absurd hk (Nat.not_lt_zero k)
  | succ n ih =>
    unfold Memory.cstring at hk ⊢
    split at hk
    · exact absurd hk (Nat.not_lt_zero k)
    · next hne =>
      rw [if_neg hne]
      cases k with
      | zero => exact ⟨Nat.succ_pos n, rfl, hne⟩
      | succ k =>
        obtain ⟨hlt, hget, hread⟩ := ih (Nat.lt_of_succ_lt_succ hk)
        rw [show a + 1 + k = a + (k + 1) by omega] at hget hread
        exact ⟨Nat.succ_lt_succ hlt, hget, hread⟩

/-- It ends at a zero byte or at the end of the span. -/
theorem Memory.cstring_end (m : Memory) (a n : Nat) :
    (Memory.cstring m a n).length = n ∨ Memory.read m (a + (Memory.cstring m a n).length) = 0 := by
  induction n generalizing a with
  | zero => exact .inl rfl
  | succ n ih =>
    unfold Memory.cstring
    split
    · next h => exact .inr h
    · rw [List.length_cons, ← Nat.add_assoc, Nat.add_right_comm]
      exact (ih (a + 1)).imp_left (congrArg Nat.succ)

section GuestString

variable {s : State} {v : Word}

theorem guestString_ram (h : InRam s.cfg v) :
    guestString s v = Memory.cstring s.mem v.toNat (s.cfg.ramEnd - v.toNat) := by
  unfold guestString
  rw [region_eq_ram.2 h]

theorem guestString_outside (h : ¬ InRam s.cfg v) : guestString s v = [] := by
  have hram : region s.cfg v ≠ .ram := mt region_eq_ram.1 h
  unfold guestString
  split
  · exact absurd ‹_› hram
  · rfl
  · rfl

end GuestString

/-! ### Accesses -/

section Access

variable {s : State} {n : CsrNum}

/-- A `csrr` that R140 allows. -/
theorem exec_csrr_allowed (rd : Reg) (ha : CsrAllowed s.priv n false) :
    exec (.csrrs rd 0 n) s = .next ((csrRead n s).2.retire rd (csrRead n s).1) := by
  rw [exec_csrr]
  unfold csrAccess
  rw [if_pos (csrLegal_iff.2 ha)]
  rfl

/-- A register that prints what is written and reads 0. -/
def PrintsText (s : State) (rs1 : Reg) (n : CsrNum) (text : List Byte) : Prop :=
  (CsrAllowed s.priv n true → CsrWrites n s rs1 { s with console := s.console ++ text }) ∧
    (CsrAllowed s.priv n false → CsrReads n s 0)

theorem printsText_of_csr {rs1 : Reg} {text : List Byte} (hw : csrWrite n (s.x rs1) s = s.output text)
    (hr : csrRead n s = (0, s)) : PrintsText s rs1 n text :=
  ⟨fun ha => csrWrites_of_csrWrite ha hw, fun ha => csrReads_of_csrRead ha hr⟩

end Access

/-! ### The statement -/

/-- Settles O52: the five numbers of a legal configuration name the five registers, and each text is unique by its digits or
bytes. -/
theorem diagnosticCsrs : Obligations.DiagnosticCsrs := by
  intro s rs1 hc c v prints
  obtain ⟨hdec, hhex, hstr, hchar, hgetc⟩ := csrNamed_diagnostic hc
  refine ⟨⟨decimalValues v.toInt.natAbs, decimalValues_lt, decimalValues_ne_nil _, decimalValues_head, decimalValues_foldl _,
    ?decimal⟩, ⟨hexValues v, hexValues_lt, rfl, hexValues_foldl v, ?hexadecimal⟩, ⟨guestString s v, ?ram, guestString_outside,
    ?string⟩, ?character, ?keyboardWrite, ?keyboardRead⟩
  case decimal =>
    rw [← decimalText_eq]
    exact printsText_of_csr (by unfold csrWrite; rw [hdec]) (by unfold csrRead; rw [hdec])
  case hexadecimal =>
    rw [← hexText_eq]
    exact printsText_of_csr (by unfold csrWrite; rw [hhex]) (by unfold csrRead; rw [hhex])
  case string => exact printsText_of_csr (by unfold csrWrite; rw [hstr]) (by unfold csrRead; rw [hstr])
  case character =>
    rw [← BitVec.setWidth_eq_extractLsb' (by decide)]
    exact printsText_of_csr (by unfold csrWrite; rw [hchar]) (by unfold csrRead; rw [hchar])
  case ram =>
    intro hr
    rw [guestString_ram hr]
    obtain ⟨-, hlt⟩ := hr
    refine ⟨fun k hk => ?_, (Memory.cstring_end _ _ _).imp_left fun h => ?_⟩
    · obtain ⟨hspan, hget, hread⟩ := Memory.cstring_bytes hk
      exact ⟨Nat.add_lt_of_lt_sub' hspan, hget, hread⟩
    · rw [h]
      exact Nat.add_sub_cancel' hlt.le
  case keyboardWrite => exact fun ha => csrWrites_of_csrWrite ha (by unfold csrWrite; rw [hgetc])
  case keyboardRead =>
    intro ha rd
    have hexec := exec_csrr_allowed rd ha
    have hread : csrRead c.csrDbgGetc s = (s.takeKey.1.getD c.keyNone, s.takeKey.2) := by unfold csrRead; rw [hgetc]
    rw [hread] at hexec
    refine ⟨fun b rest hq => polls_of_exec ?_, fun hq => polls_of_exec ?_⟩
    · rw [hexec, State.takeKey_of_cons hq]
      rfl
    · rw [hexec, State.takeKey_of_nil hq]
      rfl

end Sys2Proof.Machine
end

section
/-! PROOF. The batch engine: a step that begins an instruction (R701, R761), the two ways an instruction ends (R19), the start of a
batch call (R740 to R742, R760), and the bound on its length (R763). -/

namespace Sys2Proof.Machine

open Sys2Proof.Claims

section Batch

variable {s t : State} {i : Instr} {n : Nat}

/-! ### How an instruction ends (R19, R710) -/

theorem Exception.cause_mem (e : Exception) : e.cause ∈ [(0 : Word), 1, 2, 3, 4, 5, 6, 7, 8, 11] := by
  cases e <;> simp [Exception.cause]

/-- An instruction traps, or it leaves the batch running, or WFI or a SYSCON store ends the batch. -/
theorem Effect.traps_or_phase (h : Effect s i t) : (∃ e, t = s.takeException e) ∨
    t.phase = s.phase ∨ t.phase = .ready (some .idle) ∨ t.phase = .ready (some .restart) ∨
      t.phase = .ready (some (.poweroff s.cycle64)) := by
  cases h with
  | trap _ e => exact .inl ⟨e, rfl⟩
  | storeDevice =>
    obtain hd | hd | hd := deviceStore_phase_cases _ _ _ s
    · exact .inr (.inr (.inr (.inl hd)))
    · exact .inr (.inr (.inr (.inr hd)))
    · exact .inr (.inl hd)
  | wait => exact .inr (.inr (.inl rfl))
  | retire | jump | move | loadDevice | store | reserve | scStore | scFail | amo | mret | csr => exact .inr (.inl (by simp))

/-! ### The start of a batch call (R740 to R742, R760) -/

/-- A batch call after the host's turn is taken and after steps 1 and 2: `set` is whether the host sets `vblank`. -/
def State.callStart (s : State) (set : Bool) (elapsed : Word) : State :=
  ((s.dropTurn.hostVblank set).updateTimer elapsed).releaseWait

theorem State.dropTurn_eq (s : State) :
    s.dropTurn = { s with turns := s.turns.tail, draws := if s.turns = [] then s.draws + 1 else s.draws } := by
  unfold State.dropTurn
  split
  · next h => simp [h]
  · next h => simp [h]

theorem State.hostVblank_eq (s : State) (set : Bool) : s.hostVblank set = { s with vblank := s.vblank || set } := by
  cases set
  · simp [State.hostVblank]
  · simp [State.hostVblank]

theorem State.releaseWait_eq (s : State) : s.releaseWait = { s with wfi := s.wfi && !s.wakes } := by
  unfold State.releaseWait
  split
  · next h => simp [h]
  · next h => simp [h]

theorem State.callStart_eq (s : State) (set : Bool) (elapsed : Word) : s.callStart set elapsed = { s with
    mtime := s.mtime + elapsed.setWidth 64
    mtip := decide (s.mtimecmp.toNat ≤ (s.mtime + elapsed.setWidth 64).toNat)
    wfi := s.wfi && !(decide (s.mtimecmp.toNat ≤ (s.mtime + elapsed.setWidth 64).toNat) && s.mtie)
    vblank := s.vblank || set
    turns := s.turns.tail
    draws := if s.turns = [] then s.draws + 1 else s.draws } := by
  unfold State.callStart
  rw [State.dropTurn_eq, State.hostVblank_eq, State.releaseWait_eq]
  rfl

/-- A turn that is a call begins the batch; the call after a cold start sets no `vblank` (R772). -/
theorem step_begins_call {setVblank : Bool} {elapsed : Word} {budget : Nat}
    (hp : s.phase ∈ [Phase.ready none, .rebooted, .ready (some .continues), .ready (some .idle)])
    (hturn : s.nextTurn = .call setVblank elapsed budget) :
    step s = .next ((s.dropTurn.hostVblank (setVblank && decide (s.phase ≠ .ready none))).startBatch elapsed budget) := by
  have hcall (hp : s.phase = .rebooted ∨ s.phase = .ready (some .continues) ∨ s.phase = .ready (some .idle))
      (hne : s.phase ≠ .ready none) : step s =
        .next ((s.dropTurn.hostVblank (setVblank && decide (s.phase ≠ .ready none))).startBatch elapsed budget) := by
    rw [step_call hp, decide_eq_true hne, Bool.and_true]
    unfold hostCall
    rw [hturn]
  simp only [List.mem_cons, List.not_mem_nil, or_false] at hp
  obtain hp | hp := hp
  · rw [step_first hp, decide_eq_false (not_not_intro hp), Bool.and_false]
    unfold hostFirstCall
    rw [hturn]
    rfl
  · refine hcall hp ?_
    obtain hp | hp | hp := hp <;> rw [hp] <;> exact nofun

/-- The parts of the start of a batch call: step 2 ends it for a waiting hart, step 3 follows for an awake one. -/
theorem State.startBatch_waits {elapsed : Word} (budget : Nat) (h : (s.updateTimer elapsed).releaseWait.wfi = true) :
    s.startBatch elapsed budget = { (s.updateTimer elapsed).releaseWait with phase := .ready (some .idle) } :=
  if_pos h

theorem State.startBatch_awake {elapsed : Word} (budget : Nat) (h : (s.updateTimer elapsed).releaseWait.wfi = false) :
    s.startBatch elapsed budget = (s.updateTimer elapsed).releaseWait.deliverInterrupt budget :=
  if_neg (Bool.eq_false_iff.1 h)

/-! ### MTIP inside a batch (R740) -/

theorem Effect.mtip_eq (h : Effect s i t) : t.mtip = s.mtip := by
  cases h with
  | wait => rfl
  | trap | retire | jump | move | loadDevice | store | storeDevice | reserve | scStore | scFail | amo | mret | csr => simp

theorem step_running_mtip (hp : s.phase = .running n) (h : step s = .next t) : t.mtip = s.mtip := by
  cases n with
  | zero =>
    cases (step_budget hp).symm.trans h
    rfl
  | succ n =>
    obtain ⟨e, rfl⟩ | ⟨i, he⟩ := step_running_cases hp h
    · simp
    · exact he.mtip_eq

/-! ### The end of a batch call (R722, R763) -/

/-- A trap that ends the batch with `continue` leaves the hart at the trap vector. -/
theorem State.takeException_pc (e : Exception) (h : (s.takeException e).phase = .ready (some .continues)) :
    (s.takeException e).pc = (s.takeException e).mtvec := by
  unfold State.takeException at h ⊢
  split at h
  · cases h
  · next hstrict => rw [if_neg hstrict]; rfl

/-- A step of a running call uses up one unit of the budget, or it ends the call, with `continue` only at a trap. -/
theorem step_running_phase (hp : s.phase = .running (n + 1)) (h : step s = .next t) :
    t.phase = .running n ∨ ∃ r, t.phase = .ready (some r) ∧ (r = .continues → t.pc = t.mtvec) := by
  have htrap (e : Exception) : ∃ r, ((s.beginInstr n).takeException e).phase = .ready (some r) ∧
      (r = .continues → ((s.beginInstr n).takeException e).pc = ((s.beginInstr n).takeException e).mtvec) :=
    ⟨_, State.takeException_phase _ e, fun hr => State.takeException_pc e (hr ▸ State.takeException_phase _ e)⟩
  obtain ⟨e, rfl⟩ | ⟨i, he⟩ := step_running_cases hp h
  · exact .inr (htrap e)
  · obtain ⟨e, rfl⟩ | hphase | hphase | hphase | hphase := he.traps_or_phase
    · exact .inr (htrap e)
    · exact .inl hphase
    all_goals exact .inr ⟨_, hphase, nofun⟩

/-- By induction on the budget: the step that uses up its last unit is followed by the one that returns. -/
theorem batch_returns (hp : s.phase = .running n) :
    ∃ k m t r, k ≤ n + 1 ∧ m ≤ n ∧ StepsIn k s t ∧ t.phase = .ready (some r) ∧ t.cycle64 = s.cycle64 + BitVec.ofNat 64 m ∧
      (r = .continues → m = n ∨ t.pc = t.mtvec) := by
  induction n generalizing s with
  | zero =>
    exact ⟨1, 0, _, _, le_rfl, le_rfl, ⟨_, step_budget hp, rfl⟩, rfl, (BitVec.add_zero _).symm, fun _ => .inl rfl⟩
  | succ n ih =>
    obtain ⟨u, hu⟩ : ∃ u, step s = .next u := by
      rw [step_running hp]
      exact runInstr_next _
    have hcycle : u.cycle64 = s.cycle64 + 1 := step_running_cycle64 hp hu
    obtain hrun | ⟨r, hr, hpc⟩ := step_running_phase hp hu
    · obtain ⟨k, m, t, r, hk, hm, hsteps, hphase, hcount, hcontinues⟩ := ih hrun
      refine ⟨k + 1, m + 1, t, r, Nat.succ_le_succ hk, Nat.succ_le_succ hm, ⟨u, hu, hsteps⟩, hphase, ?_,
        fun hr => (hcontinues hr).imp_left (congrArg Nat.succ)⟩
      rw [hcount, hcycle, BitVec.add_assoc, BitVec.add_comm 1, BitVec.ofNat_add]
      rfl
    · exact ⟨1, 1, u, r, by omega, by omega, ⟨u, hu, rfl⟩, hr, hcycle, fun hc => .inr (hpc hc)⟩

end Batch

/-! ### The statements -/

/-- Settles O6: an aligned word in RAM is fetched, and a step that fetches a decodable word is its meaning. -/
theorem stepRunsDecodedInstruction : Obligations.StepRunsDecodedInstruction := by
  intro s left i hp ha hr hd
  rw [← State.loadBytes_eq_bytesValue] at hd
  exact step_begins hp (State.fetch_ram ha (region_eq_ram.2 hr)) hd

/-- Settles O9: every instruction has one of the model's effects, and each is a trap alone or keeps or ends the batch. -/
theorem instructionCompletesOrTraps : Obligations.InstructionCompletesOrTraps := by
  intro i s
  obtain ⟨t, ht, he⟩ := exec_effect i s
  refine ⟨t, ht, he.traps_or_phase.imp_left ?_⟩
  rintro ⟨e, rfl⟩
  exact ⟨e.cause, e.cause_mem, e.tval, s.takeException_trapTaken e⟩

/-- Settles O53: inside a batch nothing writes the timer; a call writes six fields in steps 1 and 2, and what follows is decided by
the wait and the pending interrupt. -/
theorem batchStartUpdatesTimerThenWaitThenInterrupt : Obligations.BatchStartUpdatesTimerThenWaitThenInterrupt := by
  refine ⟨fun s t left hp h => ⟨step_running_mtime hp h, step_running_mtip hp h⟩, ?_⟩
  intro s setVblank elapsed budget hp hturn
  refine ⟨_, s.callStart (setVblank && decide (s.phase ≠ .ready none)) elapsed, step_begins_call hp hturn, ?_, ?_, ?_, ?_, ?_, ?_,
    ?_, State.startBatch_waits budget, fun hw hdue => ?interrupt, fun hw hdue => ?instructions⟩
  case interrupt =>
    rw [State.startBatch_awake budget hw]
    exact State.deliverInterrupt_trapEntered budget hdue
  case instructions =>
    rw [State.startBatch_awake budget hw]
    exact if_neg (Bool.eq_false_iff.1 hdue)
  all_goals rw [State.callStart_eq]

/-- Settles O54: each step of a running call uses up one unit of the budget or ends the call. -/
theorem batchCallReturnsWithinBudget : Obligations.BatchCallReturnsWithinBudget := fun _ _ => batch_returns

end Sys2Proof.Machine
end

section
/-! PROOF. Rules of the whole machine: what each step may change of the mode (R731), the general registers (R102), the timer (R107,
R740), the presentation buffer (R153), the console (R160), and what U mode cannot change (R140, R730). -/

namespace Sys2Proof.Machine

open Sys2Proof.Claims

section Rules

variable {s t : State} {i : Instr} {n : Nat}

/-! ### The mode (R731) -/

/-- The marks of a trap entry (R720). -/
def EntersTrap (s t : State) : Prop :=
  t.pc = s.mtvec ∧ t.mepc = s.pc &&& 0xFFFFFFFC ∧ t.mstatus = { mie := false, mpie := s.mstatus.mie, mpp := s.priv } ∧
    t.priv = .machine

theorem State.takeException_mode (s : State) (e : Exception) :
    (s.takeException e).priv = s.priv ∨ EntersTrap s (s.takeException e) := by
  unfold State.takeException
  split
  · exact .inl rfl
  · exact .inr ⟨rfl, rfl, rfl, rfl⟩

/-- An instruction keeps the mode, traps, or is an MRET. -/
theorem Effect.mode (h : Effect s i t) :
    (t.priv = s.priv ∨ EntersTrap s t) ∨ (i = .mret ∧ s.priv = .machine ∧ t.priv = s.mstatus.mpp) := by
  cases h with
  | trap _ e => exact .inl (s.takeException_mode e)
  | mret hp => exact .inr ⟨rfl, hp, rfl⟩
  | wait => exact .inl (.inl rfl)
  | retire | jump | move | loadDevice | store | storeDevice | reserve | scStore | scFail | amo | csr =>
    exact .inl (.inl (by simp))

theorem State.startBatch_mode (s : State) (elapsed : Word) (budget : Nat) :
    (s.startBatch elapsed budget).priv = s.priv ∨ EntersTrap s (s.startBatch elapsed budget) := by
  obtain (⟨-, h⟩ | ⟨-, -, h⟩) | ⟨-, -, h⟩ := s.startBatch_cases elapsed budget <;> rw [h]
  · exact .inl (by simp)
  · exact .inr ⟨by simp, by simp [alignMask], by simp, by simp⟩
  · exact .inl (by simp)

theorem hostFirstCall_mode (s : State) : (hostFirstCall s).priv = s.priv ∨ EntersTrap s (hostFirstCall s) := by
  obtain ⟨-, h⟩ | ⟨_, elapsed, budget, -, h⟩ := hostFirstCall_cases s <;> rw [h]
  · exact .inl (by simp)
  · simpa [EntersTrap] using s.dropTurn.startBatch_mode elapsed budget

theorem hostCall_mode (s : State) : (hostCall s).priv = s.priv ∨ EntersTrap s (hostCall s) := by
  obtain h | ⟨setVblank, elapsed, budget, -, h⟩ := hostCall_cases s <;> rw [h]
  · exact .inl (by simp)
  · simpa [EntersTrap] using (s.dropTurn.hostVblank setVblank).startBatch_mode elapsed budget

theorem hostRestart_mode (s : State) : (hostRestart s).priv = s.priv ∨ (hostRestart s).priv = .machine := by
  obtain ⟨-, h⟩ | h := hostRestart_cases s <;> rw [h]
  · exact .inl (by simp)
  · exact .inr rfl

theorem step_mode (h : step s = .next t) :
    (t.priv = s.priv ∨ EntersTrap s t) ∨ (Begins s .mret ∧ s.priv = .machine ∧ t.priv = s.mstatus.mpp) ∨
      (s.phase = .ready (some .restart) ∧ t.priv = .machine) := by
  obtain ⟨n, -, ⟨e, rfl⟩ | ⟨i, hb, he⟩⟩ | ⟨-, rfl⟩ | ⟨-, rfl⟩ | ⟨-, rfl⟩ | ⟨hp, rfl⟩ := step_cases h
  · exact .inl ((s.beginInstr n).takeException_mode e)
  · obtain hmode | ⟨rfl, hpriv, hmpp⟩ := he.mode
    · exact .inl hmode
    · exact .inr (.inl ⟨hb, hpriv, hmpp⟩)
  · exact .inl (.inl rfl)
  · exact .inl (hostFirstCall_mode s)
  · exact .inl (hostCall_mode s)
  · obtain hpriv | hpriv := hostRestart_mode s
    · exact .inl (.inl hpriv)
    · exact .inr (.inr ⟨hp, hpriv⟩)

/-! ### The host's calls (R770) -/

/-- No batch call writes the registers, `mtimecmp`, the presentation buffer or the console before its first instruction. -/
structure CallKeeps (s t : State) : Prop where
  regs     : t.regs = s.regs
  mtimecmp : t.mtimecmp = s.mtimecmp
  present  : t.present = s.present
  console  : t.console = s.console

theorem hostFirstCall_keeps (s : State) : CallKeeps s (hostFirstCall s) := by
  obtain ⟨-, h⟩ | ⟨_, _, _, -, h⟩ := hostFirstCall_cases s <;> rw [h] <;> exact ⟨by simp, by simp, by simp, by simp⟩

theorem hostCall_keeps (s : State) : CallKeeps s (hostCall s) := by
  obtain h | ⟨_, _, _, -, h⟩ := hostCall_cases s <;> rw [h] <;> exact ⟨by simp, by simp, by simp, by simp⟩

/-! ### General registers (R101, R102) -/

/-- A write to a destination changes no other register. -/
theorem State.x_retire_or {u : State} (hu : u.regs = s.regs) (rd r : Reg) (v : Word) :
    (u.retire rd v).x r = s.x r ∨ rd = r := by
  rw [State.x_retire, State.x_congr hu]
  split_ifs with hzero hdest
  · exact .inl (hzero ▸ s.x_zero.symm)
  · exact .inr hdest.symm
  · exact .inl rfl

theorem IsCsr.destination {rd src : Reg} {c : CsrNum} (h : IsCsr i rd src c) : i.destination = some rd := by
  obtain rfl | rfl | rfl | rfl | rfl | rfl := h <;> rfl

/-- An instruction changes at most its destination. -/
theorem Effect.x_eq_or_destination (h : Effect s i t) (r : Reg) : t.x r = s.x r ∨ i.destination = some r := by
  have hretire {u : State} {rd : Reg} (v : Word) (hd : i.destination = some rd) (hu : u.regs = s.regs) :
      (u.retire rd v).x r = s.x r ∨ i.destination = some r :=
    (State.x_retire_or hu rd r v).imp_right fun (he : rd = r) => he ▸ hd
  cases h with
  | trap => exact .inl (State.x_congr (by simp) r)
  | retire v hd => exact hretire v hd rfl
  | jump hd => exact hretire (s.pc + 4) hd rfl
  | move | mret | wait => exact .inl rfl
  | loadDevice p v hd => exact hretire v hd (by simp)
  | store | storeDevice => exact .inl (State.x_congr (by simp) r)
  | reserve _ _ _ _ v => exact hretire v rfl rfl
  | scStore | scFail => exact hretire _ rfl rfl
  | amo _ hd => exact hretire _ hd rfl
  | csr old _ hi => exact hretire old hi.destination (by simp)

theorem step_x (h : step s = .next t) (r : Reg) :
    t.x r = s.x r ∨ s.phase = .ready (some .restart) ∨ ∃ i, Begins s i ∧ i.destination = some r := by
  obtain ⟨n, -, ⟨e, rfl⟩ | ⟨i, hb, he⟩⟩ | ⟨-, rfl⟩ | ⟨-, rfl⟩ | ⟨-, rfl⟩ | ⟨hp, -⟩ := step_cases h
  · exact .inl (State.x_congr (by simp) r)
  · exact (he.x_eq_or_destination r).imp_right fun hd => .inr ⟨i, hb, hd⟩
  · exact .inl rfl
  · exact .inl (State.x_congr (hostFirstCall_keeps s).regs r)
  · exact .inl (State.x_congr (hostCall_keeps s).regs r)
  · exact .inr (.inl hp)

/-! ### Stores to device registers (R237, R240) -/

/-- The instruction is a store whose effective address is that of the device register. -/
def StoresTo (s : State) (i : Instr) (p : StorePort) : Prop :=
  ∃ (f : StoreForm) (rs1 rs2 : Reg) (imm : BitVec 12), i = f.instr rs1 rs2 imm ∧
    effective s rs1 imm = s.cfg.mmioBase + p.offset s.cfg

theorem IsStore.form {w : Width} {rs1 rs2 : Reg} {imm : BitVec 12} (h : IsStore i w rs1 rs2 imm) :
    ∃ f : StoreForm, i = f.instr rs1 rs2 imm := by
  obtain ⟨rfl, -⟩ | ⟨rfl, -⟩ | ⟨rfl, -⟩ := h
  · exact ⟨.sb, rfl⟩
  · exact ⟨.sh, rfl⟩
  · exact ⟨.sw, rfl⟩

theorem storesTo_of_storePort {w : Width} {rs1 rs2 : Reg} {imm : BitVec 12} {p : StorePort} (hi : IsStore i w rs1 rs2 imm)
    (hp : storePort s.cfg (s.effectiveAddr rs1 imm) = some p) : StoresTo s i p := by
  obtain ⟨f, rfl⟩ := hi.form
  exact ⟨f, rs1, rs2, imm, rfl, storePort_address hp⟩

/-- A step that begins a store to the device register. -/
def BeginsStoreTo (s : State) (p : StorePort) : Prop :=
  ∃ (f : StoreForm) (rs1 rs2 : Reg) (imm : BitVec 12), Begins s (f.instr rs1 rs2 imm) ∧
    effective s rs1 imm = s.cfg.mmioBase + p.offset s.cfg

/-- Counting the instruction changes neither the effective address nor the parameters. -/
theorem StoresTo.begins {p : StorePort} (h : StoresTo (s.beginInstr n) i p) (hb : Begins s i) : BeginsStoreTo s p := by
  obtain ⟨f, rs1, rs2, imm, rfl, ha⟩ := h
  exact ⟨f, rs1, rs2, imm, hb, ha⟩

/-! ### The timer (R107, R740) -/

theorem Effect.mtimecmp (h : Effect s i t) : t.mtimecmp = s.mtimecmp ∨ StoresTo s i .cmpLo ∨ StoresTo s i .cmpHi := by
  cases h with
  | @storeDevice _ _ _ _ _ p hi _ _ hp =>
    have hstores := storesTo_of_storePort hi hp
    cases p with
    | cmpLo => exact .inr (.inl hstores)
    | cmpHi => exact .inr (.inr hstores)
    | uartData | swap => exact .inl rfl
    | syscon => exact .inl (by simp [deviceStore])
  | wait => exact .inl rfl
  | trap | retire | jump | move | loadDevice | store | reserve | scStore | scFail | amo | mret | csr => exact .inl (by simp)

theorem hostRestart_stop (h : s.nextTurn = .stop) : hostRestart s = { s.dropTurn with phase := .stopped } := by
  unfold hostRestart
  rw [h]

theorem step_mtimecmp (h : step s = .next t) (hstop : s.phase = .ready (some .restart) → s.nextTurn = .stop) :
    t.mtimecmp = s.mtimecmp ∨ BeginsStoreTo s .cmpLo ∨ BeginsStoreTo s .cmpHi := by
  obtain ⟨n, -, ⟨e, rfl⟩ | ⟨i, hb, he⟩⟩ | ⟨-, rfl⟩ | ⟨-, rfl⟩ | ⟨-, rfl⟩ | ⟨hp, rfl⟩ := step_cases h
  · exact .inl (by simp)
  · exact he.mtimecmp.imp_right (Or.imp (·.begins hb) (·.begins hb))
  · exact .inl rfl
  · exact .inl (hostFirstCall_keeps s).mtimecmp
  · exact .inl (hostCall_keeps s).mtimecmp
  · rw [hostRestart_stop (hstop hp)]
    exact .inl (by simp)

theorem State.startBatch_mtime (s : State) (elapsed : Word) (budget : Nat) :
    (s.startBatch elapsed budget).mtime = s.mtime + elapsed.setWidth 64 := by
  obtain (⟨-, he⟩ | ⟨-, -, he⟩) | ⟨-, -, he⟩ := s.startBatch_cases elapsed budget <;> simp [he]

/-- Neither `mtime` nor MTIP changes. -/
def KeepsTimer (s t : State) : Prop := t.mtime = s.mtime ∧ t.mtip = s.mtip

/-- The host's turn is a call, and the timer is updated by it (R740). -/
def TimerUpdated (s t : State) : Prop :=
  ∃ setVblank elapsed budget, s.nextTurn = .call setVblank elapsed budget ∧ t.mtime = s.mtime + elapsed.setWidth 64 ∧
    t.mtip = decide (s.mtimecmp.toNat ≤ t.mtime.toNat)

theorem hostFirstCall_timer (s : State) : KeepsTimer s (hostFirstCall s) ∨ TimerUpdated s (hostFirstCall s) := by
  obtain ⟨-, h⟩ | ⟨setVblank, elapsed, budget, hturn, h⟩ := hostFirstCall_cases s <;> rw [h]
  · exact .inl ⟨by simp, by simp⟩
  · exact .inr ⟨setVblank, elapsed, budget, hturn, by simp [State.startBatch_mtime],
      by simp [State.startBatch_mtime, State.startBatch_mtip]⟩

theorem hostCall_timer (s : State) : KeepsTimer s (hostCall s) ∨ TimerUpdated s (hostCall s) := by
  obtain h | ⟨setVblank, elapsed, budget, hturn, h⟩ := hostCall_cases s <;> rw [h]
  · exact .inl ⟨by simp, by simp⟩
  · exact .inr ⟨setVblank, elapsed, budget, hturn, by simp [State.startBatch_mtime],
      by simp [State.startBatch_mtime, State.startBatch_mtip]⟩

theorem step_timer (h : step s = .next t) (hstop : s.phase = .ready (some .restart) → s.nextTurn = .stop) :
    KeepsTimer s t ∨ (s.phase ∈ [Phase.ready none, .rebooted, .ready (some .continues), .ready (some .idle)] ∧
      TimerUpdated s t) := by
  obtain ⟨n, hp, -⟩ | ⟨hp, -⟩ | ⟨hp, rfl⟩ | ⟨hp, rfl⟩ | ⟨hp, rfl⟩ := step_cases h
  · exact .inl ⟨step_running_mtime hp h, step_running_mtip hp h⟩
  · exact .inl ⟨step_running_mtime hp h, step_running_mtip hp h⟩
  · exact (hostFirstCall_timer s).imp_right fun hu => ⟨by simp [hp], hu⟩
  · refine (hostCall_timer s).imp_right fun hu => ⟨?_, hu⟩
    obtain hp | hp | hp := hp <;> simp [hp]
  · rw [hostRestart_stop (hstop hp)]
    exact .inl ⟨by simp, by simp⟩

/-! ### The presentation buffer (R153) -/

theorem Effect.present (h : Effect s i t) : t.present = s.present ∨ StoresTo s i .swap := by
  cases h with
  | @storeDevice _ _ _ _ _ p hi _ _ hp =>
    cases p with
    | swap => exact .inr (storesTo_of_storePort hi hp)
    | uartData | cmpLo | cmpHi => exact .inl rfl
    | syscon => exact .inl (by simp [deviceStore])
  | wait => exact .inl rfl
  | trap | retire | jump | move | loadDevice | store | reserve | scStore | scFail | amo | mret | csr => exact .inl (by simp)

theorem hostRestart_present (s : State) : (hostRestart s).present = s.present := by
  obtain ⟨-, h⟩ | h := hostRestart_cases s <;> rw [h]
  · simp
  · rfl

theorem step_present (h : step s = .next t) : t.present = s.present ∨ BeginsStoreTo s .swap := by
  obtain ⟨n, -, ⟨e, rfl⟩ | ⟨i, hb, he⟩⟩ | ⟨-, rfl⟩ | ⟨-, rfl⟩ | ⟨-, rfl⟩ | ⟨-, rfl⟩ := step_cases h
  · exact .inl (by simp)
  · exact he.present.imp_right (·.begins hb)
  · exact .inl rfl
  · exact .inl (hostFirstCall_keeps s).present
  · exact .inl (hostCall_keeps s).present
  · exact .inl (hostRestart_present s)

/-! ### The console (R160) -/

/-- The four diagnostic registers that print (R132 to R135). -/
def outputCsrs (c : Config) : List CsrNum := [c.csrDbgDec, c.csrDbgHex, c.csrDbgStr, c.csrDbgChar]

/-- The instruction is a CSR instruction on a register that prints. -/
def AccessesOutput (c : Config) (i : Instr) : Prop := ∃ rd src n, n ∈ outputCsrs c ∧ IsCsr i rd src n

/-- The console grows by a text, which is empty but for the reason `p`. -/
def Appends (s t : State) (p : Prop) : Prop := ∃ text, t.console = s.console ++ text ∧ (text = [] ∨ p)

theorem appends_of_eq {p : Prop} (h : t.console = s.console) : Appends s t p :=
  ⟨[], h.trans (List.append_nil _).symm, .inl rfl⟩

theorem Appends.imp {p q : Prop} (h : Appends s t p) (hpq : p → q) : Appends s t q := by
  obtain ⟨text, hconsole, hcase⟩ := h
  exact ⟨text, hconsole, hcase.imp_right hpq⟩

/-- A CSR write appends to the console, and only one to a register that prints appends anything. -/
theorem csrWrite_console (c : CsrNum) (v : Word) (s : State) :
    Appends s (csrWrite c v s) (c ∈ outputCsrs s.cfg) := by
  unfold csrWrite
  cases hn : csrNamed s.cfg c with
  | dbgDec | dbgHex | dbgStr | dbgChar => exact ⟨_, rfl, .inr (by simp [outputCsrs, csrNamed_number hn])⟩
  | _ => exact appends_of_eq rfl

theorem afterCsrWrite_console (c : CsrNum) (reads writes : Bool) (v : Word) (s : State) :
    Appends s (afterCsrWrite c reads writes v s) (c ∈ outputCsrs s.cfg) := by
  have hread : (afterCsrRead c reads s).console = s.console ∧ (afterCsrRead c reads s).cfg = s.cfg := by
    cases reads
    · exact ⟨rfl, rfl⟩
    · exact ⟨by simp [afterCsrRead], by simp [afterCsrRead]⟩
  obtain ⟨hconsole, hcfg⟩ := hread
  cases writes
  · exact appends_of_eq hconsole
  · have hwrite := csrWrite_console c v (afterCsrRead c reads s)
    rwa [Appends, hconsole, hcfg] at hwrite

/-- An instruction appends to the console, and only a UART store or an access to a register that prints appends anything. -/
theorem Effect.console (h : Effect s i t) : Appends s t (StoresTo s i .uartData ∨ AccessesOutput s.cfg i) := by
  cases h with
  | @storeDevice _ _ _ _ _ p hi _ _ hp =>
    cases p with
    | uartData => exact ⟨_, rfl, .inr (.inl (storesTo_of_storePort hi hp))⟩
    | cmpLo | cmpHi | swap => exact appends_of_eq rfl
    | syscon => exact appends_of_eq (by simp [deviceStore])
  | csr old v hi =>
    obtain ⟨text, hconsole, hcase⟩ := afterCsrWrite_console _ _ _ v s
    exact ⟨text, by simpa using hconsole, hcase.imp_right fun hc => .inr ⟨_, _, _, hc, hi⟩⟩
  | wait => exact appends_of_eq rfl
  | trap | retire | jump | move | loadDevice | store | reserve | scStore | scFail | amo | mret =>
    exact appends_of_eq (by simp)

theorem hostRestart_console (s : State) : (hostRestart s).console = s.console := by
  obtain ⟨-, h⟩ | h := hostRestart_cases s <;> rw [h]
  · simp
  · rfl

theorem step_console (h : step s = .next t) :
    Appends s t (BeginsStoreTo s .uartData ∨ ∃ i, Begins s i ∧ AccessesOutput s.cfg i) := by
  obtain ⟨n, -, ⟨e, rfl⟩ | ⟨i, hb, he⟩⟩ | ⟨-, rfl⟩ | ⟨-, rfl⟩ | ⟨-, rfl⟩ | ⟨-, rfl⟩ := step_cases h
  · exact appends_of_eq (by simp)
  · exact he.console.imp (Or.imp (·.begins hb) fun hout => ⟨i, hb, hout⟩)
  · exact appends_of_eq rfl
  · exact appends_of_eq (hostFirstCall_keeps s).console
  · exact appends_of_eq (hostCall_keeps s).console
  · exact appends_of_eq (hostRestart_console s)

/-! ### U mode (R140, R730) -/

/-- The mode and every machine-mode register are as before. -/
def KeepsMachineState (s t : State) : Prop :=
  t.priv = s.priv ∧ t.mstatus = s.mstatus ∧ t.mtie = s.mtie ∧ t.mtip = s.mtip ∧ t.mtvec = s.mtvec ∧
    t.mscratch = s.mscratch ∧ t.mepc = s.mepc ∧ t.mcause = s.mcause ∧ t.mtval = s.mtval

theorem KeepsMachineState.trans {u : State} (hu : KeepsMachineState s u) (ht : KeepsMachineState u t) :
    KeepsMachineState s t := by
  unfold KeepsMachineState at hu ht ⊢
  simpa only [hu] using ht

/-- A write that R140 allows in U mode names none of the trap registers. -/
theorem csrWrite_keepsMachineState {c : CsrNum} (hl : csrLegal .user c true = true) (v : Word) (s : State) :
    KeepsMachineState s (csrWrite c v s) := by
  unfold csrWrite
  cases hn : csrNamed s.cfg c with
  | mstatus | mie | mtvec | mscratch | mepc | mcause | mtval =>
    rw [csrNamed_number hn] at hl
    exact absurd hl (by decide)
  | _ => exact ⟨rfl, rfl, rfl, rfl, rfl, rfl, rfl, rfl, rfl⟩

theorem afterCsrRead_keepsMachineState (c : CsrNum) (reads : Bool) (s : State) :
    KeepsMachineState s (afterCsrRead c reads s) := by
  cases reads
  · exact ⟨rfl, rfl, rfl, rfl, rfl, rfl, rfl, rfl, rfl⟩
  · simp [KeepsMachineState, afterCsrRead]

theorem afterCsrWrite_keepsMachineState {c : CsrNum} {writes : Bool} (hl : csrLegal .user c writes = true) (reads : Bool)
    (v : Word) (s : State) : KeepsMachineState s (afterCsrWrite c reads writes v s) := by
  have hread := afterCsrRead_keepsMachineState c reads s
  cases writes
  · exact hread
  · exact hread.trans (csrWrite_keepsMachineState hl v _)

theorem Effect.user (h : Effect s i t) (hp : s.priv = .user) : (∃ e, t = s.takeException e) ∨ KeepsMachineState s t := by
  cases h with
  | trap _ e => exact .inl ⟨e, rfl⟩
  | mret hm => exact nomatch hp.symm.trans hm
  | @csr _ _ _ _ reads _ _ v _ hl =>
    have hkeeps := afterCsrWrite_keepsMachineState (hp ▸ hl) reads v s
    exact .inr (by simpa [KeepsMachineState] using hkeeps)
  | wait => exact .inr ⟨rfl, rfl, rfl, rfl, rfl, rfl, rfl, rfl, rfl⟩
  | retire | jump | move | loadDevice | store | storeDevice | reserve | scStore | scFail | amo =>
    exact .inr (by simp [KeepsMachineState])

end Rules

/-! ### The statements -/

/-- Settles O55: a step keeps the mode or enters a trap, but for MRET, which runs in M mode, and a reset, which leads there. -/
theorem modeChangesOnlyByTrapMretReset : Obligations.ModeChangesOnlyByTrapMretReset := by
  intro s t h
  obtain (hkeeps | ⟨hpc, hmepc, hmstatus, hpriv⟩) | ⟨hb, hpriv, hmpp⟩ | ⟨hp, hpriv⟩ := step_mode h
  case inl.inl =>
    rw [hkeeps]
    exact ⟨fun hm hu => (nomatch hm.symm.trans hu), fun hu hm => (nomatch hu.symm.trans hm)⟩
  case inl.inr => exact ⟨fun _ hu => (nomatch hpriv.symm.trans hu), fun hs _ => .inr ⟨hpc, hmepc, hs ▸ hmstatus⟩⟩
  case inr.inl => exact ⟨fun _ hu => ⟨hb, hmpp.symm.trans hu⟩, fun hs => (nomatch hpriv.symm.trans hs)⟩
  case inr.inr => exact ⟨fun _ hu => (nomatch hpriv.symm.trans hu), fun _ _ => .inl hp⟩

/-- Settles O56: each effect writes its instruction's destination alone, and the turns of the host but a reset write none. -/
theorem registersChangeOnlyAsDestination : Obligations.RegistersChangeOnlyAsDestination :=
  fun _ t h => ⟨t.x_zero, fun r hne => (step_x h r).resolve_left hne⟩

/-- Settles O57: of the effects only a store to a compare register writes `mtimecmp`, and of the steps only a call writes the
timer. -/
theorem timerStateWriters : Obligations.TimerStateWriters := by
  refine fun s t h hstop => ⟨fun hne => ?compare, fun hne => ?timer⟩
  case compare =>
    obtain ⟨f, rs1, rs2, imm, hb, ha⟩ | ⟨f, rs1, rs2, imm, hb, ha⟩ := (step_mtimecmp h hstop).resolve_left hne
    · exact ⟨f, rs1, rs2, imm, hb, .inl ha⟩
    · exact ⟨f, rs1, rs2, imm, hb, .inr ha⟩
  case timer =>
    obtain ⟨hmtime, hmtip⟩ | ⟨hp, setVblank, elapsed, budget, hupdated⟩ := step_timer h hstop
    · exact absurd hne (by simp [hmtime, hmtip])
    · exact ⟨setVblank, elapsed, budget, hp, hupdated⟩

/-- Settles O58: of the effects only a store to the swap address writes the buffer, and no turn of the host does. -/
theorem presentationChangesOnlyBySwap : Obligations.PresentationChangesOnlyBySwap :=
  fun _ _ h hne => (step_present h).resolve_left hne

/-- Settles O59: every step appends a text to the console, which is empty but for the two ways listed. -/
theorem consoleIsAppendOnly : Obligations.ConsoleIsAppendOnly := by
  intro s t h
  obtain ⟨text, hconsole, hcase⟩ := step_console h
  refine ⟨⟨text, hconsole.symm⟩, fun hne => ?_⟩
  have htext : text ≠ [] := fun hnil => hne (by rw [hconsole, hnil, List.append_nil])
  obtain hstore | ⟨i, hb, rd, src, n, hn, hi⟩ := hcase.resolve_left htext
  · exact .inl hstore
  · exact .inr ⟨rd, src, n, hn, i, by simpa using hi, hb⟩

/-- Settles O60: each effect of an instruction in U mode is a trap alone or writes no machine-mode register. -/
theorem userModeCannotChangeMachineState : Obligations.UserModeCannotChangeMachineState := by
  intro i s t hp h
  obtain ⟨e, rfl⟩ | ⟨hpriv, hregisters⟩ := (effect_of_exec h).user hp
  · exact .inl ⟨e.cause, e.tval, s.takeException_trapTaken e⟩
  · exact .inr ⟨hpriv.trans hp, hregisters⟩

end Sys2Proof.Machine
end
